-- ==== Sys2Proof/Word.lean ====
section
/-! DEFINITION. The word types of the CFE and the two one-bit choices it names (spec/00_scope.md R8, spec/10_state.md R22 and R27). -/

namespace Sys2Proof

/-- A byte is 8 bits (R8). -/
abbrev Byte := BitVec 8

/-- The width of the CRC register and of a CRC table entry (R23, R34). -/
abbrev Half := BitVec 16

/-- The width of a host word and of a command word (R53, R70). -/
abbrev Word := BitVec 32

/-- The checksum mode, "enum {Sum8, Crc16}" (R22, R90): one bit of the machine, exactly two values. -/
inductive Mode where
  | sum8
  | crc16
deriving DecidableEq, Repr

/-- The one-bit size select `s` (R27, R71, R110): it names the two payload lengths and no other. -/
inductive PSize where
  | s128
  | s1024
deriving DecidableEq, Repr

end Sys2Proof
end

