-- ==== Sys2Proof/Config.lean ====
section
/-! DEFINITION. What a build of the CFE fixes (spec/00_scope.md R7): the Sum8 trailer length, and the two OPEN parameters that no rule reads. -/

namespace Sys2Proof

/-- The admitted values of the parameter `P_SUM8_TLEN` (R7, R91; spec/93_implementation_defined.md I1): 1 or 2. -/
inductive Sum8TLen where
  | one
  | two
deriving DecidableEq, Repr

/-- The number of bytes a value of `P_SUM8_TLEN` stands for. -/
def Sum8TLen.toNat : Sum8TLen → Nat
  | .one => 1
  | .two => 2

/-- `P_SUM8_TLEN` of this hardware: 1 (R7, R91).
The operations that read the parameter take it as an argument, so the reference variant (2) can be stated too (log entry 7). -/
def Config.pSum8TLen : Sum8TLen := .one

/-- `P_OUT_DEPTH` (R7, R59; I2): OPEN, at least 0.
"no rule reads it", and no definition of this model does (log entry 8). -/
opaque Config.pOutDepth : Nat

/-- `P_LATENCY`, the cycles a command takes, by opcode (R7, R168; I3): OPEN.
"not observable through any rule", and no definition of this model reads it (log entry 8). -/
opaque Config.pLatency : BitVec 4 → Nat

end Sys2Proof
end

