-- ==== Sys2Proof/Syntax.lean ====
section
/-! DEFINITION. The thirteen commands (spec/30_encoding.md R70 to R72), one constructor per row of spec/opcode_table.json. -/

namespace Sys2Proof

/-- A command of the CFE, its operands at the widths of R71.
No operand can be out of range: the types hold exactly the values the encoding admits. -/
inductive Instr where
  /-- NOP (R130). -/
  | nop
  /-- CLR (R100). -/
  | clr
  /-- UPD b (R101). -/
  | upd (b : Byte)
  /-- TRL (R102). -/
  | trl
  /-- SETMODE m (R103). -/
  | setmode (m : Mode)
  /-- SETFILL f (R114). -/
  | setfill (f : Byte)
  /-- BEGIN s, n (R116). -/
  | beginFrame (s : PSize) (n : Byte)
  /-- BEGINN s (R117). -/
  | beginNext (s : PSize)
  /-- BEGINR s (R118). -/
  | beginAgain (s : PSize)
  /-- DATA b (R119). -/
  | data (b : Byte)
  /-- END (R120). -/
  | endFrame
  /-- ABORT (R121). -/
  | abort
  /-- CLRERR (R131). -/
  | clrerr
deriving DecidableEq, Repr

end Sys2Proof
end

