-- ==== Sys2Proof/Decode.lean ====
section
/-! DEFINITION. Decoding a command word and encoding a command (spec/30_encoding.md R70 to R76). -/

namespace Sys2Proof

/-- The assigned values of the field OP (R72), in the table's order. -/
inductive Opcode where
  | nop | clr | upd | trl | setmode | setfill | beginFrame | beginNext | beginAgain | data | endFrame | abort | clrerr
deriving DecidableEq, Repr

/-- The three verdicts of `Decode` (R74). -/
inductive Verdict where
  /-- OP is 0xD, 0xE or 0xF. -/
  | illegal
  /-- OP is assigned and some reserved bit is 1. -/
  | reserved (op : Opcode)
  /-- The word spells this command. -/
  | cmd (i : Instr)
deriving DecidableEq, Repr

/-- The field OP, w[15:12] (R70). -/
def opField (w : Word) : BitVec 4 := w.extractLsb' 12 4

/-- The immediate field IMM, w[7:0] (R70): the operands `b`, `f` and `n` (R71). -/
def immField (w : Word) : Byte := w.extractLsb' 0 8

/-- The mode bit: 0 is Sum8, 1 is Crc16 (R22, R71). -/
def Mode.ofBit (m : Bool) : Mode := if m then .crc16 else .sum8

/-- The bit a mode is stored and encoded as (R22). -/
def Mode.bit : Mode → Bool
  | .sum8 => false
  | .crc16 => true

/-- The size select: 0 is 128 bytes, 1 is 1024 bytes (R27, R71). -/
def PSize.ofBit (s : Bool) : PSize := if s then .s1024 else .s128

/-- The bit a size is stored and encoded as (R27). -/
def PSize.bit : PSize → Bool
  | .s128 => false
  | .s1024 => true

/-- The operand `m`, w[0] (R71). -/
def modeField (w : Word) : Mode := Mode.ofBit (w.getLsbD 0)

/-- The operand `s`, w[8] (R71). -/
def sizeField (w : Word) : PSize := PSize.ofBit (w.getLsbD 8)

/-- The opcode map (R72): 0xD, 0xE and 0xF are unassigned. -/
def Opcode.ofField (f : BitVec 4) : Option Opcode :=
  match f.toNat with
  | 0x0 => some .nop
  | 0x1 => some .clr
  | 0x2 => some .upd
  | 0x3 => some .trl
  | 0x4 => some .setmode
  | 0x5 => some .setfill
  | 0x6 => some .beginFrame
  | 0x7 => some .beginNext
  | 0x8 => some .beginAgain
  | 0x9 => some .data
  | 0xA => some .endFrame
  | 0xB => some .abort
  | 0xC => some .clrerr
  | _ => none

/-- The column "match" of R72. -/
def Opcode.matchBits : Opcode → Word
  | .nop => 0x00000000
  | .clr => 0x00001000
  | .upd => 0x00002000
  | .trl => 0x00003000
  | .setmode => 0x00004000
  | .setfill => 0x00005000
  | .beginFrame => 0x00006000
  | .beginNext => 0x00007000
  | .beginAgain => 0x00008000
  | .data => 0x00009000
  | .endFrame => 0x0000A000
  | .abort => 0x0000B000
  | .clrerr => 0x0000C000

/-- The column "mask" of R72: the bits the command fixes. -/
def Opcode.mask : Opcode → Word
  | .nop => 0xFFFFFFFF
  | .clr => 0xFFFFFFFF
  | .upd => 0xFFFFFF00
  | .trl => 0xFFFFFFFF
  | .setmode => 0xFFFFFFFE
  | .setfill => 0xFFFFFF00
  | .beginFrame => 0xFFFFFE00
  | .beginNext => 0xFFFFFEFF
  | .beginAgain => 0xFFFFFEFF
  | .data => 0xFFFFFF00
  | .endFrame => 0xFFFFFFFF
  | .abort => 0xFFFFFFFF
  | .clrerr => 0xFFFFFFFF

/-- Operand assembly (R71): the command of an opcode with its operands read from the word. -/
def Opcode.command (op : Opcode) (w : Word) : Instr :=
  match op with
  | .nop => .nop
  | .clr => .clr
  | .upd => .upd (immField w)
  | .trl => .trl
  | .setmode => .setmode (modeField w)
  | .setfill => .setfill (immField w)
  | .beginFrame => .beginFrame (sizeField w) (immField w)
  | .beginNext => .beginNext (sizeField w)
  | .beginAgain => .beginAgain (sizeField w)
  | .data => .data (immField w)
  | .endFrame => .endFrame
  | .abort => .abort
  | .clrerr => .clrerr

/-- `Decode(w)`, total on all words (R74): the opcode is looked up before any reserved bit is. -/
def decode (w : Word) : Verdict :=
  match Opcode.ofField (opField w) with
  | none => .illegal
  | some op => if w &&& op.mask = op.matchBits then .cmd (op.command w) else .reserved op

/-- The opcode of a command (R76: "fully determined by OP"). -/
def Instr.opcode : Instr → Opcode
  | .nop => .nop
  | .clr => .clr
  | .upd _ => .upd
  | .trl => .trl
  | .setmode _ => .setmode
  | .setfill _ => .setfill
  | .beginFrame _ _ => .beginFrame
  | .beginNext _ => .beginNext
  | .beginAgain _ => .beginAgain
  | .data _ => .data
  | .endFrame => .endFrame
  | .abort => .abort
  | .clrerr => .clrerr

/-- A byte operand in w[7:0] (R71). -/
def immBits (b : Byte) : Word := b.setWidth 32

/-- The mode bit in w[0] (R71). -/
def modeBits (m : Mode) : Word := if m.bit then 0x00000001 else 0

/-- The size select in w[8] (R71). -/
def sizeBits (s : PSize) : Word := if s.bit then 0x00000100 else 0

/-- The one word that spells a command (R77's column "word"). -/
def encode : Instr → Word
  | .nop => 0x00000000
  | .clr => 0x00001000
  | .upd b => 0x00002000 ||| immBits b
  | .trl => 0x00003000
  | .setmode m => 0x00004000 ||| modeBits m
  | .setfill f => 0x00005000 ||| immBits f
  | .beginFrame s n => 0x00006000 ||| sizeBits s ||| immBits n
  | .beginNext s => 0x00007000 ||| sizeBits s
  | .beginAgain s => 0x00008000 ||| sizeBits s
  | .data b => 0x00009000 ||| immBits b
  | .endFrame => 0x0000A000
  | .abort => 0x0000B000
  | .clrerr => 0x0000C000

/-- The command word whose low `nbits` bits are those of `w`, every other bit 0 (log entry 15). -/
def tableWord (nbits w : Nat) : Word := BitVec.ofNat 32 (w % 2 ^ nbits)

/-- The command the decoder reads from a word numbered as spec/opcode_table.json numbers it; none for an illegal or reserved word. -/
def decodeTableWord (nbits w : Nat) : Option Instr :=
  match decode (tableWord nbits w) with
  | .cmd i => some i
  | .illegal => none
  | .reserved _ => none

end Sys2Proof
end

