-- ==== Sys2Proof/Machine/State.lean ====
section
/-! DEFINITION. The state of the CFE (spec/10_state.md R20 to R41): every register, the output stream, and the MODEL's own record of what stands outside the engine. The CRC ROM is a constant, not a field (log entry 6): `crcTable` in Machine/Ops.lean. -/

namespace Sys2Proof.Machine

/-- What happens next at the CFE's pins (log entry 1): the host's bus accesses (R51, R52), its reset (R160), and the output consumer taking a byte (R59).
A list of these fixes the interleaving of the three agents of R6. -/
inductive Input where
  /-- `MemRead(idx, 4)` (R51): the host issues a read of a word index. -/
  | read (idx : BitVec 4)
  /-- `MemWrite(idx, 4, v)` (R52): the host issues a write of a word to a word index. -/
  | write (idx : BitVec 4) (v : Word)
  /-- The reset input is asserted (R160, R162). -/
  | assertReset
  /-- The consumer drives ready high for one transfer (R59). -/
  | take
deriving DecidableEq, Repr

/-- The architectural state (R20) and three fields of the model's own: `taken` and `held` split the stream `OUT` of R58 at the output port (log entry 3), `inputs` and `busData` are the outside world (log entries 1 and 2). -/
structure State where
  /-- MODE (R22). -/
  mode : Mode
  /-- CRC (R23). -/
  crc : Half
  /-- SUM (R24). -/
  sum : Byte
  /-- FILL (R25). -/
  fill : Byte
  /-- INFRAME (R26): true is in frame, false is idle. -/
  inFrame : Bool
  /-- SIZE (R27). -/
  size : PSize
  /-- CNT (R28). -/
  cnt : BitVec 11
  /-- BLK (R29). -/
  blk : Byte
  /-- ERR (R30). -/
  err : Bool
  /-- ERRCODE (R31). -/
  errCode : BitVec 4
  /-- ERRINFO (R32). -/
  errInfo : Word
  /-- TIDX (R33). -/
  tidx : Byte
  /-- The bytes of `OUT` the output consumer has taken, in order (R58, R59). -/
  taken : List Byte
  /-- The bytes of `OUT` the executing command has emitted and the consumer has not taken yet, oldest first: the hidden state (a) of R40. -/
  held : List Byte
  /-- MODEL's own: what happens next, soonest first. -/
  inputs : List Input
  /-- MODEL's own: the words the host's reads have returned, oldest first (R51). -/
  busData : List Word
deriving DecidableEq, Repr

/-- The state after reset (R41, R160), every register at the value R41 gives it; nothing emitted, nothing waiting at the pins. -/
def State.reset : State where
  mode := .sum8
  crc := 0x0000
  sum := 0x00
  fill := 0x1A
  inFrame := false
  size := .s128
  cnt := 0
  blk := 0xFF
  err := false
  errCode := 0
  errInfo := 0x00000000
  tidx := 0x00
  taken := []
  held := []
  inputs := []
  busData := []

/-- The CFE stops with no fault: "The CFE has no trap" (R147), and a command that is in error is recorded and ends (R143, log entry 10).
So the type has no constructor. -/
inductive Fault
deriving DecidableEq, Repr

/-- Why a step has no meaning. -/
inductive Refusal where
  /-- Raised by no arm of `exec`: every command of the table has its meaning.
  Safe: the model would stop where the hardware goes on. -/
  | notModelled (mnemonic : String)
  /-- Raised by `onInput` when the host issues a bus access while a CMD write is still in progress.
  The spec puts such a host outside the design (R63; spec/93_implementation_defined.md I5, treatment `refuse`).
  Safe: the model stops (log entry 4). -/
  | accessDuringCommand
deriving DecidableEq, Repr

end Sys2Proof.Machine
end

