-- ==== Sys2Proof/Machine/Operands.lean ====
section
/-! DEFINITION. What the operands of the frame commands stand for (spec/41_frame.md R110 to R112, R117). -/

namespace Sys2Proof.Machine

/-- `Size(s)` (R110): the payload length. -/
def payloadLen : PSize → Nat
  | .s128 => 128
  | .s1024 => 1024

/-- `Header(s)` (R111): SOH for 128 bytes, STX for 1024. -/
def headerByte : PSize → Byte
  | .s128 => 0x01
  | .s1024 => 0x02

/-- The complement of a block number, `n ^ 0xFF` (R112). -/
def blockComplement (n : Byte) : Byte := n ^^^ 0xFF

/-- The block number after `n`, `(n + 1) mod 256` (R117). -/
def nextBlock (n : Byte) : Byte := n + 1

end Sys2Proof.Machine
end

