-- ==== Sys2Proof/Machine/Flags.lean ====
section
/-! DEFINITION. Error codes and legality (spec/60_exceptions.md R140, R141), the trailer length (spec/40_checksum.md R91) and the composed views of the register map (spec/10_state.md R35, R37). -/

namespace Sys2Proof.Machine

/-- The errors a command word can raise (R140). -/
inductive ErrKind where
  | eIllegal
  | eRsvd
  | eState
  | eOverflow
deriving DecidableEq, Repr

/-- The code of an error in ERRCODE (R140). -/
def ErrKind.code : ErrKind → BitVec 4
  | .eIllegal => 1
  | .eRsvd => 2
  | .eState => 3
  | .eOverflow => 4

/-- `Legal(op, INFRAME)` (R141). -/
def legal (i : Instr) (inFrame : Bool) : Bool :=
  match i with
  | .nop => true
  | .abort => true
  | .clrerr => true
  | .clr => !inFrame
  | .upd _ => !inFrame
  | .trl => !inFrame
  | .setmode _ => !inFrame
  | .setfill _ => !inFrame
  | .beginFrame _ _ => !inFrame
  | .beginNext _ => !inFrame
  | .beginAgain _ => !inFrame
  | .data _ => inFrame
  | .endFrame => inFrame

/-- `TLen()` (R91), for a value of the parameter `P_SUM8_TLEN`. -/
def tLen (p : Sum8TLen) (m : Mode) : Nat :=
  match m with
  | .crc16 => 2
  | .sum8 => p.toNat

/-- STATUS (R35): `zext_32({TLen()[1:0], ERRCODE, ERR, SIZE, INFRAME, MODE})`. -/
def statusView (p : Sum8TLen) (s : State) : Word :=
  (BitVec.ofNat 2 (tLen p s.mode) ++ s.errCode ++ BitVec.ofBool s.err ++ BitVec.ofBool s.size.bit
    ++ BitVec.ofBool s.inFrame ++ BitVec.ofBool s.mode.bit).setWidth 32

/-- The BLK view (R37): `zext_32({BLK ^ 0xFF, BLK})`. -/
def blkView (s : State) : Word := (blockComplement s.blk ++ s.blk).setWidth 32

/-- The output signal `err_o` (R145): "equals ERR at every cycle". -/
def errO (s : State) : Bool := s.err

end Sys2Proof.Machine
end

