-- ==== Sys2Proof/Machine/Ops.lean ====
section
/-! DEFINITION. The shared operations the commands are written over: the CRC ROM and its step, the two accumulators, emission, the trailer (spec/40_checksum.md), the frame actions (spec/41_frame.md), and raising and clearing an error (spec/60_exceptions.md R143, R148). -/

namespace Sys2Proof.Machine

/-! ## The CRC ROM and the accumulators -/

/-- One round of the table rule (R92): bit 15 is tested before the shift (D30). -/
def crcRound (e : Half) : Half :=
  if e.getLsbD 15 then (e <<< 1) ^^^ 0x1021 else e <<< 1

/-- `k` rounds of the table rule (R92). -/
def crcRounds : Nat → Half → Half
  | 0, e => e
  | k + 1, e => crcRounds k (crcRound e)

/-- `T[i]`, the CRC table ROM (R34), its contents by the generation rule of R92. -/
def crcTable (i : Byte) : Half := crcRounds 8 (i.setWidth 16 <<< 8)

/-- `CrcStep(c, b)` (R94). -/
def crcStep (c : Half) (b : Byte) : Half :=
  (c <<< 8) ^^^ crcTable (c.extractLsb' 8 8 ^^^ b)

/-- `Acc(b)` (R95): both accumulators fold the byte whatever MODE holds. -/
def State.acc (b : Byte) (s : State) : State :=
  { s with crc := crcStep s.crc b, sum := s.sum + b }

/-- The accumulators at the values CLR and every BEGIN give them (R100, R115). -/
def State.clearAcc (s : State) : State := { s with crc := 0x0000, sum := 0x00 }

/-- `Chk()` (R97): the accumulator MODE selects. -/
def chk (s : State) : Half :=
  match s.mode with
  | .crc16 => s.crc
  | .sum8 => s.sum.setWidth 16

/-! ## The output stream -/

/-- `OUT` (R58): every byte emitted, in emission order: what the consumer has taken, then what it has not (log entry 3). -/
def State.out (s : State) : List Byte := s.taken ++ s.held

/-- `Emit(b)` (R58): append a byte to the end of `OUT`. -/
def State.emit (b : Byte) (s : State) : State := { s with held := s.held ++ [b] }

/-- `EmitTrailer()` (R98), most-significant byte first. -/
def State.emitTrailer (p : Sum8TLen) (s : State) : State :=
  let v := chk s
  if tLen p s.mode = 2 then (s.emit (v.extractLsb' 8 8)).emit (v.extractLsb' 0 8)
  else s.emit (v.extractLsb' 0 8)

/-- A CMD write is in progress: bytes it emitted are "still held by the CFE" (R59). -/
def State.busy (s : State) : Bool := !s.held.isEmpty

/-- The output port's valid signal (R59). -/
def portValid (s : State) : Bool := s.busy

/-- The output port's data byte, where valid (R59). -/
def portData (s : State) : Option Byte := s.held.head?

/-- One cycle with ready high (R59): the oldest byte held is transferred; with valid low nothing is. -/
def State.takeByte (s : State) : State :=
  match s.held with
  | [] => s
  | b :: rest => { s with taken := s.taken ++ [b], held := rest }

/-! ## The frame -/

/-- `BeginFrame(s, n)` (R115). -/
def State.openFrame (z : PSize) (n : Byte) (s : State) : State :=
  let s := ((s.emit (headerByte z)).emit n).emit (blockComplement n)
  { s.clearAcc with blk := n, size := z, cnt := 0, inFrame := true }

/-- One payload byte: fold it, emit it, count it (R119; the body of END's loop, R120). -/
def State.payloadByte (b : Byte) (s : State) : State :=
  let s := (s.acc b).emit b
  { s with cnt := s.cnt + 1 }

/-- `k` pad bytes (R120). -/
def State.padBytes : Nat → State → State
  | 0, s => s
  | k + 1, s => State.padBytes k (s.payloadByte s.fill)

/-- The number of rounds of END's `while CNT < Size(SIZE)` (R120). -/
def padCount (s : State) : Nat := payloadLen s.size - s.cnt.toNat

/-- `INFRAME <- 0` (R120, R121). -/
def State.closeFrame (s : State) : State := { s with inFrame := false }

/-- The action of END (R120): pad, emit the trailer, close. -/
def State.padAndClose (p : Sum8TLen) (s : State) : State :=
  ((s.padBytes (padCount s)).emitTrailer p).closeFrame

/-- The payload is full, `CNT = Size(SIZE)` (R119). -/
def payloadFull (s : State) : Bool := decide (s.cnt.toNat = payloadLen s.size)

/-! ## Errors -/

/-- `raise E_X(w)` (R143): record the first error since ERR was last 0, and end the command with no other effect (R144). -/
def State.raise (e : ErrKind) (w : Word) (s : State) : State :=
  if s.err then s else { s with err := true, errCode := e.code, errInfo := w }

/-- The error record re-armed (R131, R148): the CFE's only return from an error. -/
def State.clearRecord (s : State) : State :=
  { s with err := false, errCode := 0, errInfo := 0x00000000 }

/-- The third check of `Execute` (R142), then the command's own action: E_STATE where the frame state does not admit the command.
The word recorded is the command's only spelling (R76; log entry 9). -/
def perform (i : Instr) (act : State → State) (s : State) : Host.Outcome State Fault Refusal :=
  if legal i s.inFrame then .next (act s) else .next (s.raise .eState (encode i))

end Sys2Proof.Machine
end

