-- ==== Sys2Proof/Machine/Checksum.lean ====
section
/-! DEFINITION. The commands that drive the checksum engine alone (spec/40_checksum.md R100 to R103). -/

namespace Sys2Proof.Machine

/-- CLR (R100). -/
def execClr (s : State) : Host.Outcome State Fault Refusal :=
  perform .clr State.clearAcc s

/-- UPD b (R101). -/
def execUpd (b : Byte) (s : State) : Host.Outcome State Fault Refusal :=
  perform (.upd b) (State.acc b) s

/-- TRL (R102). -/
def execTrl (s : State) : Host.Outcome State Fault Refusal :=
  perform .trl (State.emitTrailer Config.pSum8TLen) s

/-- SETMODE m (R103). -/
def execSetmode (m : Mode) (s : State) : Host.Outcome State Fault Refusal :=
  perform (.setmode m) (fun s => { s with mode := m }) s

end Sys2Proof.Machine
end

