-- ==== Sys2Proof/Machine/Control.lean ====
section
/-! DEFINITION. The housekeeping commands (spec/42_control.md R130, R131). -/

namespace Sys2Proof.Machine

/-- NOP (R130). -/
def execNop (s : State) : Host.Outcome State Fault Refusal :=
  perform .nop id s

/-- CLRERR (R131). -/
def execClrerr (s : State) : Host.Outcome State Fault Refusal :=
  perform .clrerr State.clearRecord s

end Sys2Proof.Machine
end

