-- ==== Sys2Proof/Machine/Frame.lean ====
section
/-! DEFINITION. The commands that build a frame (spec/41_frame.md R114 to R121). -/

namespace Sys2Proof.Machine

/-- SETFILL f (R114). -/
def execSetfill (f : Byte) (s : State) : Host.Outcome State Fault Refusal :=
  perform (.setfill f) (fun s => { s with fill := f }) s

/-- BEGIN s, n (R116). -/
def execBeginFrame (z : PSize) (n : Byte) (s : State) : Host.Outcome State Fault Refusal :=
  perform (.beginFrame z n) (State.openFrame z n) s

/-- BEGINN s (R117): the block number after BLK. -/
def execBeginNext (z : PSize) (s : State) : Host.Outcome State Fault Refusal :=
  perform (.beginNext z) (fun s => s.openFrame z (nextBlock s.blk)) s

/-- BEGINR s (R118): the block number BLK again. -/
def execBeginAgain (z : PSize) (s : State) : Host.Outcome State Fault Refusal :=
  perform (.beginAgain z) (fun s => s.openFrame z s.blk) s

/-- DATA b (R119): E_OVERFLOW, the last check of R142, when the payload is full. -/
def execData (b : Byte) (s : State) : Host.Outcome State Fault Refusal :=
  perform (.data b) (fun s => if payloadFull s then s.raise .eOverflow (encode (.data b)) else s.payloadByte b) s

/-- END (R120). -/
def execEndFrame (s : State) : Host.Outcome State Fault Refusal :=
  perform .endFrame (State.padAndClose Config.pSum8TLen) s

/-- ABORT (R121): legal in both frame states. -/
def execAbort (s : State) : Host.Outcome State Fault Refusal :=
  perform .abort State.closeFrame s

end Sys2Proof.Machine
end

