-- ==== Sys2Proof/Machine/Dispatch.lean ====
section
/-! DEFINITION. The meaning of each command, one arm per constructor (spec/60_exceptions.md R142, "perform the rule of op"). -/

namespace Sys2Proof.Machine

def exec (i : Instr) (s : State) : Host.Outcome State Fault Refusal :=
  match i with
  | .nop => Sys2Proof.Machine.execNop s
  | .clr => Sys2Proof.Machine.execClr s
  | .upd b => Sys2Proof.Machine.execUpd b s
  | .trl => Sys2Proof.Machine.execTrl s
  | .setmode m => Sys2Proof.Machine.execSetmode m s
  | .setfill f => Sys2Proof.Machine.execSetfill f s
  | .beginFrame z n => Sys2Proof.Machine.execBeginFrame z n s
  | .beginNext z => Sys2Proof.Machine.execBeginNext z s
  | .beginAgain z => Sys2Proof.Machine.execBeginAgain z s
  | .data b => Sys2Proof.Machine.execData b s
  | .endFrame => Sys2Proof.Machine.execEndFrame s
  | .abort => Sys2Proof.Machine.execAbort s
  | .clrerr => Sys2Proof.Machine.execClrerr s

end Sys2Proof.Machine
end

