-- ==== Sys2Proof/Machine/Bus.lean ====
section
/-! DEFINITION. The host bus, the output port and the reset input (spec/20_memory.md R51 to R59, spec/60_exceptions.md R142, spec/70_reset_and_hazards.md R160 to R162). -/

namespace Sys2Proof.Machine

/-- `Execute(w)` (R142): decode first, the reserved bits second, then the command's own checks and action. -/
def execute (w : Word) (s : State) : Host.Outcome State Fault Refusal :=
  match decode w with
  | .illegal => .next (s.raise .eIllegal w)
  | .reserved _ => .next (s.raise .eRsvd w)
  | .cmd i => exec i s

/-- The value of a register read (R39): CMD and the reserved indices read 0. -/
def readReg (idx : BitVec 4) (s : State) : Word :=
  match idx.toNat with
  | 1 => statusView Config.pSum8TLen s
  | 2 => s.crc.setWidth 32
  | 3 => s.sum.setWidth 32
  | 4 => (chk s).setWidth 32
  | 5 => s.cnt.setWidth 32
  | 6 => blkView s
  | 7 => s.fill.setWidth 32
  | 8 => s.errInfo
  | 9 => s.tidx.setWidth 32
  | 10 => (crcTable s.tidx).setWidth 32
  | _ => 0

/-- `MemRead(idx, 4)` (R51): the host gets the register's value; no register changes. -/
def busRead (idx : BitVec 4) (s : State) : State :=
  { s with busData := s.busData ++ [readReg idx s] }

/-- `MemWrite(idx, 4, v)` (R52): CMD executes, TIDX takes v[7:0], every other index ignores the write (R54). -/
def busWrite (idx : BitVec 4) (v : Word) (s : State) : Host.Outcome State Fault Refusal :=
  match idx.toNat with
  | 0 => execute v s
  | 9 => .next { s with tidx := v.setWidth 8 }
  | _ => .next s

/-- Asserting reset (R160, R162): every register takes its value of R41, the bytes held are discarded, the bytes taken stay delivered; what lies outside the CFE is no concern of its reset (log entry 5). -/
def State.hardReset (s : State) : State :=
  { State.reset with taken := s.taken, inputs := s.inputs, busData := s.busData }

/-- One input.
A host access while a CMD write is in progress is outside the contract (R63; log entry 4). -/
def onInput (e : Input) (s : State) : Host.Outcome State Fault Refusal :=
  match e with
  | .read idx => if s.busy then .refused .accessDuringCommand else .next (busRead idx s)
  | .write idx v => if s.busy then .refused .accessDuringCommand else busWrite idx v s
  | .assertReset => .next s.hardReset
  | .take => .next s.takeByte

/-- The next thing that happens at the pins; with nothing there the CFE waits unchanged, since "The engine takes no step of its own" (R6; log entry 11). -/
def nextInput (s : State) : Host.Outcome State Fault Refusal :=
  match s.inputs with
  | [] => .next s
  | e :: rest => onInput e { s with inputs := rest }

/-- The pins as they stand when the host is about to write `w` to CMD: the write before it has completed, so its bytes have been taken (R59), and the write comes next (log entry 12). -/
def State.withCmdWrite (s : State) (w : Word) : State :=
  { s with taken := s.taken ++ s.held, held := [], inputs := .write 0 w :: s.inputs }

end Sys2Proof.Machine
end

