-- ==== Sys2Proof/Machine/Step.lean ====
section
/-! DEFINITION. One step of the machine (spec/00_scope.md R6, spec/20_memory.md R57): the next input, if there is one. -/

namespace Sys2Proof.Machine

/-- One step: the next input takes place. -/
def step (s : State) : Host.Outcome State Fault Refusal := nextInput s

/-- The state in which the very next step is the host's write of this word to CMD (R52, R62; log entry 12). -/
def State.withFetchWord (s : State) (nbits w : Nat) : State :=
  s.withCmdWrite (tableWord nbits w)

end Sys2Proof.Machine
end

