-- ==== Sys2Proof/WellFormed.lean ====
section
/-! DEFINITION. What an assembler line may say (spec/30_encoding.md R77 to R79).
An `Instr` is well-formed by its type; the checks stand on the numbers a host program writes, where "A size operand other than 128 or 1024 and a byte operand above 0xFF are assembly errors". -/

namespace Sys2Proof

/-- One line of a host program: the command lines of R77, the bus lines of R78 and the pseudo-instructions of R79, their numbers as written.
A text in double quotes stands as the list of its bytes (log entry 14). -/
inductive SourceLine where
  | nop
  | clr
  /-- `UPD b`, `UPD b1, ..., bk` and `UPD "text"`. -/
  | upd (bytes : List Nat)
  | trl
  /-- `SETMODE 0` or `SETMODE SUM8`, `SETMODE 1` or `SETMODE CRC16`. -/
  | setmode (m : Nat)
  | setfill (f : Nat)
  | beginFrame (size n : Nat)
  | beginNext (size : Nat)
  | beginAgain (size : Nat)
  /-- `DATA b`, `DATA b1, ..., bk` and `DATA "text"`. -/
  | data (bytes : List Nat)
  | endFrame
  | abort
  | clrerr
  /-- `.word w`: any word, "the way to spell an illegal or reserved word". -/
  | word (w : Nat)
  /-- `CKSUM bytes`. -/
  | cksum (bytes : List Nat)
  /-- `FRAME s, n, bytes`. -/
  | frame (size n : Nat) (bytes : List Nat)
  /-- `NAMEBLK "name"`, the name already lower-cased and UTF-8 encoded. -/
  | nameblk (name : List Nat)
  /-- `WR <register>, v`, the register by its index in R39. -/
  | wr (idx v : Nat)
  /-- `RD <register>`. -/
  | rd (idx : Nat)
deriving DecidableEq, Repr

/-- A byte operand, a block number or a fill byte is at most 0xFF (R71, R77). -/
def byteOk (b : Nat) : Bool := decide (b ≤ 0xFF)

/-- A size operand is 128 or 1024 (R77). -/
def sizeOk (size : Nat) : Bool := decide (size = 128) || decide (size = 1024)

/-- A mode operand is 0 or 1: R77 spells no other, and the model takes another number for an assembly error (log entry 14). -/
def modeOk (m : Nat) : Bool := decide (m ≤ 1)

/-- A host word has 32 bits (R53, R77 "any 32-bit word"; log entry 14). -/
def wordOk (w : Nat) : Bool := decide (w < 2 ^ 32)

/-- "an index outside 0 to 15 cannot be expressed" (R53; log entry 14). -/
def indexOk (idx : Nat) : Bool := decide (idx < 16)

/-- The line is no assembly error (R77; log entry 14 for the operands R77 does not speak of). -/
def SourceLine.wf : SourceLine → Bool
  | .nop => true
  | .clr => true
  | .upd bytes => bytes.all byteOk
  | .trl => true
  | .setmode m => modeOk m
  | .setfill f => byteOk f
  | .beginFrame size n => sizeOk size && byteOk n
  | .beginNext size => sizeOk size
  | .beginAgain size => sizeOk size
  | .data bytes => bytes.all byteOk
  | .endFrame => true
  | .abort => true
  | .clrerr => true
  | .word w => wordOk w
  | .cksum bytes => bytes.all byteOk
  | .frame size n bytes => sizeOk size && byteOk n && bytes.all byteOk
  | .nameblk name => name.all byteOk
  | .wr idx v => indexOk idx && wordOk v
  | .rd idx => indexOk idx

end Sys2Proof
end

