-- ==== Sys2Proof/Machine/Assembler.lean ====
section
/-! DEFINITION. The assembler and bus syntax (spec/30_encoding.md R77 to R79): the host accesses a source line stands for. -/

namespace Sys2Proof.Machine

/-- The byte a written number stands for (R71). -/
def byteOf (b : Nat) : Byte := BitVec.ofNat 8 b

/-- The size select of a written size (R77). -/
def sizeSelect (size : Nat) : PSize := if size = 1024 then .s1024 else .s128

/-- The mode of a written mode bit (R77). -/
def modeOf (m : Nat) : Mode := if m = 1 then .crc16 else .sum8

/-- The commands of a command line or of a pseudo-instruction's expansion (R77, R79); none for the lines that are no commands. -/
def lineCommands : SourceLine → List Instr
  | .nop => [.nop]
  | .clr => [.clr]
  | .upd bytes => bytes.map (fun b => .upd (byteOf b))
  | .trl => [.trl]
  | .setmode m => [.setmode (modeOf m)]
  | .setfill f => [.setfill (byteOf f)]
  | .beginFrame size n => [.beginFrame (sizeSelect size) (byteOf n)]
  | .beginNext size => [.beginNext (sizeSelect size)]
  | .beginAgain size => [.beginAgain (sizeSelect size)]
  | .data bytes => bytes.map (fun b => .data (byteOf b))
  | .endFrame => [.endFrame]
  | .abort => [.abort]
  | .clrerr => [.clrerr]
  | .cksum bytes => .clr :: bytes.map (fun b => .upd (byteOf b))
  | .frame size n bytes =>
    .beginFrame (sizeSelect size) (byteOf n) :: (bytes.map (fun b => .data (byteOf b)) ++ [.endFrame])
  | .nameblk name =>
    [.setfill 0x00, .beginFrame .s128 0] ++ name.map (fun b => .data (byteOf b)) ++ [.endFrame, .setfill 0x1A]
  | .word _ => []
  | .wr _ _ => []
  | .rd _ => []

/-- "a command line stands for `WR CMD, <word>`" (R78). -/
def cmdWrite (w : Word) : Input := .write 0 w

/-- The host accesses of a line (R78); none for an assembly error, which has no encoding (R77). -/
def assembleLine (l : SourceLine) : Option (List Input) :=
  if l.wf then
    match l with
    | .word w => some [cmdWrite (BitVec.ofNat 32 w)]
    | .wr idx v => some [.write (BitVec.ofNat 4 idx) (BitVec.ofNat 32 v)]
    | .rd idx => some [.read (BitVec.ofNat 4 idx)]
    | l => some ((lineCommands l).map (fun i => cmdWrite (encode i)))
  else none

end Sys2Proof.Machine
end

