-- ==== Sys2Proof/Safety.lean ====
section
/-! DEFINITION. The words claims are made in: the checksums and the frame of spec/40_checksum.md R94 to R97 and spec/41_frame.md R113 as functions of the payload, the invariants of spec/10_state.md R42, what an error leaves, and runs of commands. -/

namespace Sys2Proof.Machine

/-! ## Checksums and frames as functions of the payload -/

/-- The CRC of a byte sequence folded from `c` (R94). -/
def crcFrom (c : Half) (bytes : List Byte) : Half := bytes.foldl crcStep c

/-- The additive checksum of a byte sequence folded from `a` (R95, R96). -/
def sumFrom (a : Byte) (bytes : List Byte) : Byte := bytes.foldl (· + ·) a

/-- The trailer bytes of a payload (R97, R98), with `P_SUM8_TLEN = 1`: the CRC high byte first, or the one byte of the sum. -/
def trailerOf (m : Mode) (payload : List Byte) : List Byte :=
  match m with
  | .crc16 => [(crcFrom 0 payload).extractLsb' 8 8, (crcFrom 0 payload).extractLsb' 0 8]
  | .sum8 => [sumFrom 0 payload]

/-- A payload padded to its size with the fill byte (R113, R120). -/
def padded (z : PSize) (fill : Byte) (bytes : List Byte) : List Byte :=
  bytes ++ List.replicate (payloadLen z - bytes.length) fill

/-- One wire frame (R113): header, block number, complement, padded payload, trailer. -/
def frameBytes (m : Mode) (fill : Byte) (z : PSize) (n : Byte) (bytes : List Byte) : List Byte :=
  [headerByte z, n, n ^^^ 0xFF] ++ padded z fill bytes ++ trailerOf m (padded z fill bytes)

/-- The size and block number a BEGIN-family command resolves to (R116 to R118). -/
def opensAs (i : Instr) (blk : Byte) : Option (PSize × Byte) :=
  match i with
  | .beginFrame z n => some (z, n)
  | .beginNext z => some (z, blk + 1)
  | .beginAgain z => some (z, blk)
  | .nop | .clr | .upd _ | .trl | .setmode _ | .setfill _ | .data _ | .endFrame | .abort | .clrerr => none

/-! ## Invariants -/

/-- A frame stands open over `pre`: the stream is `pre`, the frame's three opening bytes, and the payload bytes so far; CNT is their number and both accumulators hold their checksums (R42, third point; R113 before its pad bytes and trailer). -/
def State.OpenedAt (pre : List Byte) (s : State) : Prop :=
  ∃ payload : List Byte,
    s.out = pre ++ [headerByte s.size, s.blk, s.blk ^^^ 0xFF] ++ payload ∧
    payload.length = s.cnt.toNat ∧ s.crc = crcFrom 0 payload ∧ s.sum = sumFrom 0 payload

/-- The first three points of R42: `CNT <= Size(SIZE)`, the error record's shape, and the bytes of an open frame.
The fourth is about two states and stands as `Obligations.ModeAndFillFixedInFrame`. -/
abbrev State.Inv (s : State) : Prop :=
  s.cnt.toNat ≤ payloadLen s.size ∧
  (s.err = false → s.errCode = 0 ∧ s.errInfo = 0) ∧
  (s.err = true → s.errCode = 1 ∨ s.errCode = 2 ∨ s.errCode = 3 ∨ s.errCode = 4) ∧
  (s.inFrame = true → ∃ pre : List Byte, s.OpenedAt pre)

/-! ## Errors -/

/-- The record of an error (R143): the first since ERR was last 0 is kept, a later one leaves no trace, and nothing else changes (R144). -/
def State.recorded (code : BitVec 4) (w : Word) (s : State) : State :=
  if s.err then s else { s with err := true, errCode := code, errInfo := w }

/-- The error record of one state put in place of another's. -/
def State.withRecordOf (s r : State) : State :=
  { s with err := r.err, errCode := r.errCode, errInfo := r.errInfo }

/-- Some bit that R75 reserves for the word's OP is 1 (for OP 0x0 to 0xC): w[31:16] for every command, w[11:9] for the three BEGIN commands and w[11:8] for the others, w[7:0] for the commands without a byte operand, w[7:1] for SETMODE. -/
def reservedBitSet (w : Word) : Bool :=
  let op := (w.extractLsb' 12 4).toNat
  decide (w.extractLsb' 16 16 ≠ 0) ||
  (if op = 6 ∨ op = 7 ∨ op = 8 then decide (w.extractLsb' 9 3 ≠ 0) else decide (w.extractLsb' 8 4 ≠ 0)) ||
  (if op = 2 ∨ op = 5 ∨ op = 6 ∨ op = 9 then false
   else if op = 4 then decide (w.extractLsb' 1 7 ≠ 0)
   else decide (w.extractLsb' 0 8 ≠ 0))

/-- The command can be refused for the frame state (R140: "raised by" E_STATE). -/
def stateChecked : Instr → Bool
  | .nop => false
  | .abort => false
  | .clrerr => false
  | .clr => true
  | .upd _ => true
  | .trl => true
  | .setmode _ => true
  | .setfill _ => true
  | .beginFrame _ _ => true
  | .beginNext _ => true
  | .beginAgain _ => true
  | .data _ => true
  | .endFrame => true

/-- The command is DATA (R140: "raised by" E_OVERFLOW). -/
def isData : Instr → Bool
  | .data _ => true
  | .nop | .clr | .upd _ | .trl | .setmode _ | .setfill _ | .beginFrame _ _ | .beginNext _ | .beginAgain _ | .endFrame
  | .abort | .clrerr => false

/-- The command opens a frame (R26). -/
def opensFrame : Instr → Bool
  | .beginFrame _ _ => true
  | .beginNext _ => true
  | .beginAgain _ => true
  | .nop | .clr | .upd _ | .trl | .setmode _ | .setfill _ | .data _ | .endFrame | .abort | .clrerr => false

/-- The command closes a frame (R26). -/
def closesFrame : Instr → Bool
  | .endFrame => true
  | .abort => true
  | .nop | .clr | .upd _ | .trl | .setmode _ | .setfill _ | .beginFrame _ _ | .beginNext _ | .beginAgain _ | .data _
  | .clrerr => false

/-- The code in ERRCODE is one the word in ERRINFO can have raised (R140: the column "raised by"). -/
def codeFits (code : BitVec 4) (w : Word) : Bool :=
  match decode w with
  | .illegal => decide (code = 1)
  | .reserved _ => decide (code = 2)
  | .cmd i => (decide (code = 3) && stateChecked i) || (decide (code = 4) && isData i)

/-- A recorded error is one its recorded word can have raised. -/
abbrev State.RecordFits (s : State) : Prop := s.err = true → codeFits s.errCode s.errInfo = true

/-! ## Runs -/

/-- The commands executed one after another, each to completion (R57, R165). -/
def runCommands : List Instr → State → Host.Outcome State Fault Refusal
  | [], s => .next s
  | i :: rest, s =>
    match exec i s with
    | .next t => runCommands rest t
    | .fault f => .fault f
    | .refused r => .refused r

/-- The commands of one frame: an opening command, the payload bytes, END (R113). -/
def frameCommands (i : Instr) (bytes : List Byte) : List Instr :=
  i :: (bytes.map Instr.data ++ [Instr.endFrame])

/-- A run of frames (R125): each with the command that opens it and its payload bytes. -/
def framesCommands (frames : List (Instr × List Byte)) : List Instr :=
  frames.flatMap (fun f => frameCommands f.1 f.2)

/-- "A run has ended" (R64): nothing waits at the pins and the last write has completed. -/
abbrev State.ended (s : State) : Prop := s.inputs = [] ∧ s.held = []

/-- "a hang" (R64; I6): a command's bytes wait for a consumer that takes no more. -/
abbrev State.hung (s : State) : Prop := s.inputs = [] ∧ s.held ≠ []

end Sys2Proof.Machine
end

