-- ==== Sys2Proof/Certificates/Slice0/Obligations.lean ====
section
/-! DEFINITION. The statements about the CFE, from the numbered rules of spec/. -/

open Sys2Proof Sys2Proof.Machine

/-! ## Encoding -/

/-- Words written out from R72 and R77, one of every format, with the illegal and reserved words of spec/95_test_vectors.md X2 to X14. -/
def Obligations.KnownWordsDecode : Prop :=
  decode 0x00000000 = .cmd .nop ∧ decode 0x00001000 = .cmd .clr ∧ decode 0x00002031 = .cmd (.upd 0x31) ∧
  decode 0x00003000 = .cmd .trl ∧ decode 0x00004001 = .cmd (.setmode .crc16) ∧ decode 0x0000501A = .cmd (.setfill 0x1A) ∧
  decode 0x000061FF = .cmd (.beginFrame .s1024 0xFF) ∧ decode 0x00007000 = .cmd (.beginNext .s128) ∧
  decode 0x00008100 = .cmd (.beginAgain .s1024) ∧ decode 0x00009041 = .cmd (.data 0x41) ∧
  decode 0x0000A000 = .cmd .endFrame ∧ decode 0x0000B000 = .cmd .abort ∧ decode 0x0000C000 = .cmd .clrerr ∧
  decode 0x0000D123 = .illegal ∧ decode 0x00019041 = .reserved .data ∧ decode 0x00004043 = .reserved .setmode

/-- R76: decoding a command's word gives the command back, every operand at every value. -/
def Obligations.DecodeReadsBackEncode : Prop :=
  ∀ i : Instr, decode (encode i) = .cmd i

/-- R76: no other word spells the command. -/
def Obligations.DecodedWordIsItsOnlySpelling : Prop :=
  ∀ (w : Word) (i : Instr), decode w = .cmd i → w = encode i

/-- R72: the columns match and mask, written out: a word spells a row's command exactly when `w & mask == match`. -/
def Obligations.WordsMatchOpcodeMap : Prop :=
  ∀ row ∈ ([(.nop, 0x00000000, 0xFFFFFFFF), (.clr, 0x00001000, 0xFFFFFFFF), (.upd, 0x00002000, 0xFFFFFF00),
      (.trl, 0x00003000, 0xFFFFFFFF), (.setmode, 0x00004000, 0xFFFFFFFE), (.setfill, 0x00005000, 0xFFFFFF00),
      (.beginFrame, 0x00006000, 0xFFFFFE00), (.beginNext, 0x00007000, 0xFFFFFEFF), (.beginAgain, 0x00008000, 0xFFFFFEFF),
      (.data, 0x00009000, 0xFFFFFF00), (.endFrame, 0x0000A000, 0xFFFFFFFF), (.abort, 0x0000B000, 0xFFFFFFFF),
      (.clrerr, 0x0000C000, 0xFFFFFFFF)] : List (Opcode × Word × Word)),
    ∀ w : Word, (∃ i : Instr, decode w = .cmd i ∧ i.opcode = row.1) ↔ w &&& row.2.2 = row.2.1

/-- R75: the illegal words, the reserved words, and what each does; every other word spells a command. -/
def Obligations.IllegalAndReservedWordsRaise : Prop :=
  ∀ (w : Word) (s : State),
    (0xD ≤ (w.extractLsb' 12 4).toNat → execute w s = .next (s.recorded 1 w)) ∧
    ((w.extractLsb' 12 4).toNat < 0xD → reservedBitSet w = true → execute w s = .next (s.recorded 2 w)) ∧
    ((w.extractLsb' 12 4).toNat < 0xD → reservedBitSet w = false → ∃ i, decode w = .cmd i ∧ execute w s = exec i s)

/-! ## The commands, one rule each: the effect, the error in the wrong frame state, the reserved words, the legal words -/

/-- R130. -/
def Obligations.NopChangesNothing : Prop :=
  ∀ s : State,
    exec .nop s = .next s ∧
    execute 0x00000000 s = exec .nop s ∧
    (∀ w : Word, w.extractLsb' 12 4 = 0x0 → w ≠ 0x00000000 → execute w s = .next (s.recorded 2 w))

/-- R100. -/
def Obligations.ClrClearsAccumulators : Prop :=
  ∀ s : State,
    (s.inFrame = false → exec .clr s = .next { s with crc := 0x0000, sum := 0x00 }) ∧
    (s.inFrame = true → exec .clr s = .next (s.recorded 3 0x00001000)) ∧
    execute 0x00001000 s = exec .clr s ∧
    (∀ w : Word, w.extractLsb' 12 4 = 0x1 → w ≠ 0x00001000 → execute w s = .next (s.recorded 2 w))

/-- R101. -/
def Obligations.UpdFoldsOneByte : Prop :=
  ∀ (s : State) (b : Byte),
    (s.inFrame = false → exec (.upd b) s = .next { s with crc := crcStep s.crc b, sum := s.sum + b }) ∧
    (s.inFrame = true → exec (.upd b) s = .next (s.recorded 3 (0x00002000 ||| b.setWidth 32))) ∧
    execute (0x00002000 ||| b.setWidth 32) s = exec (.upd b) s ∧
    (∀ w : Word, w.extractLsb' 12 4 = 0x2 → w.extractLsb' 16 16 ≠ 0 ∨ w.extractLsb' 8 4 ≠ 0 →
      execute w s = .next (s.recorded 2 w))

/-- R102, with `P_SUM8_TLEN = 1`. -/
def Obligations.TrlEmitsTrailer : Prop :=
  ∀ s : State,
    (s.inFrame = false → s.mode = .crc16 →
      exec .trl s = .next { s with held := s.held ++ [s.crc.extractLsb' 8 8, s.crc.extractLsb' 0 8] }) ∧
    (s.inFrame = false → s.mode = .sum8 → exec .trl s = .next { s with held := s.held ++ [s.sum] }) ∧
    (s.inFrame = true → exec .trl s = .next (s.recorded 3 0x00003000)) ∧
    execute 0x00003000 s = exec .trl s ∧
    (∀ w : Word, w.extractLsb' 12 4 = 0x3 → w ≠ 0x00003000 → execute w s = .next (s.recorded 2 w))

/-- R103. -/
def Obligations.SetmodeSelectsChecksum : Prop :=
  ∀ (s : State) (m : Mode),
    (s.inFrame = false → exec (.setmode m) s = .next { s with mode := m }) ∧
    (s.inFrame = true → exec (.setmode .sum8) s = .next (s.recorded 3 0x00004000) ∧
      exec (.setmode .crc16) s = .next (s.recorded 3 0x00004001)) ∧
    execute 0x00004000 s = exec (.setmode .sum8) s ∧ execute 0x00004001 s = exec (.setmode .crc16) s ∧
    (∀ w : Word, w.extractLsb' 12 4 = 0x4 → w.extractLsb' 16 16 ≠ 0 ∨ w.extractLsb' 1 11 ≠ 0 →
      execute w s = .next (s.recorded 2 w))

/-- R114. -/
def Obligations.SetfillSetsPadByte : Prop :=
  ∀ (s : State) (f : Byte),
    (s.inFrame = false → exec (.setfill f) s = .next { s with fill := f }) ∧
    (s.inFrame = true → exec (.setfill f) s = .next (s.recorded 3 (0x00005000 ||| f.setWidth 32))) ∧
    execute (0x00005000 ||| f.setWidth 32) s = exec (.setfill f) s ∧
    (∀ w : Word, w.extractLsb' 12 4 = 0x5 → w.extractLsb' 16 16 ≠ 0 ∨ w.extractLsb' 8 4 ≠ 0 →
      execute w s = .next (s.recorded 2 w))

/-- R116, through R115, R111 and R112. -/
def Obligations.BeginOpensNumberedFrame : Prop :=
  ∀ (s : State) (n : Byte),
    (s.inFrame = false →
      exec (.beginFrame .s128 n) s = .next { s with
        crc := 0x0000, sum := 0x00, blk := n, size := .s128, cnt := 0, inFrame := true,
        held := s.held ++ [0x01, n, n ^^^ 0xFF] } ∧
      exec (.beginFrame .s1024 n) s = .next { s with
        crc := 0x0000, sum := 0x00, blk := n, size := .s1024, cnt := 0, inFrame := true,
        held := s.held ++ [0x02, n, n ^^^ 0xFF] }) ∧
    (s.inFrame = true →
      exec (.beginFrame .s128 n) s = .next (s.recorded 3 (0x00006000 ||| n.setWidth 32)) ∧
      exec (.beginFrame .s1024 n) s = .next (s.recorded 3 (0x00006100 ||| n.setWidth 32))) ∧
    execute (0x00006000 ||| n.setWidth 32) s = exec (.beginFrame .s128 n) s ∧
    execute (0x00006100 ||| n.setWidth 32) s = exec (.beginFrame .s1024 n) s ∧
    (∀ w : Word, w.extractLsb' 12 4 = 0x6 → w.extractLsb' 16 16 ≠ 0 ∨ w.extractLsb' 9 3 ≠ 0 →
      execute w s = .next (s.recorded 2 w))

/-- R117. -/
def Obligations.BeginnOpensNextBlock : Prop :=
  ∀ s : State,
    (s.inFrame = false →
      exec (.beginNext .s128) s = .next { s with
        crc := 0x0000, sum := 0x00, blk := BitVec.ofNat 8 ((s.blk.toNat + 1) % 256), size := .s128, cnt := 0, inFrame := true,
        held := s.held ++ [0x01, BitVec.ofNat 8 ((s.blk.toNat + 1) % 256), BitVec.ofNat 8 ((s.blk.toNat + 1) % 256) ^^^ 0xFF] } ∧
      exec (.beginNext .s1024) s = .next { s with
        crc := 0x0000, sum := 0x00, blk := BitVec.ofNat 8 ((s.blk.toNat + 1) % 256), size := .s1024, cnt := 0, inFrame := true,
        held := s.held ++ [0x02, BitVec.ofNat 8 ((s.blk.toNat + 1) % 256), BitVec.ofNat 8 ((s.blk.toNat + 1) % 256) ^^^ 0xFF] }) ∧
    (s.inFrame = true →
      exec (.beginNext .s128) s = .next (s.recorded 3 0x00007000) ∧
      exec (.beginNext .s1024) s = .next (s.recorded 3 0x00007100)) ∧
    execute 0x00007000 s = exec (.beginNext .s128) s ∧ execute 0x00007100 s = exec (.beginNext .s1024) s ∧
    (∀ w : Word, w.extractLsb' 12 4 = 0x7 → w.extractLsb' 16 16 ≠ 0 ∨ w.extractLsb' 9 3 ≠ 0 ∨ w.extractLsb' 0 8 ≠ 0 →
      execute w s = .next (s.recorded 2 w))

/-- R118. -/
def Obligations.BeginrReopensBlock : Prop :=
  ∀ s : State,
    (s.inFrame = false →
      exec (.beginAgain .s128) s = .next { s with
        crc := 0x0000, sum := 0x00, size := .s128, cnt := 0, inFrame := true,
        held := s.held ++ [0x01, s.blk, s.blk ^^^ 0xFF] } ∧
      exec (.beginAgain .s1024) s = .next { s with
        crc := 0x0000, sum := 0x00, size := .s1024, cnt := 0, inFrame := true,
        held := s.held ++ [0x02, s.blk, s.blk ^^^ 0xFF] }) ∧
    (s.inFrame = true →
      exec (.beginAgain .s128) s = .next (s.recorded 3 0x00008000) ∧
      exec (.beginAgain .s1024) s = .next (s.recorded 3 0x00008100)) ∧
    execute 0x00008000 s = exec (.beginAgain .s128) s ∧ execute 0x00008100 s = exec (.beginAgain .s1024) s ∧
    (∀ w : Word, w.extractLsb' 12 4 = 0x8 → w.extractLsb' 16 16 ≠ 0 ∨ w.extractLsb' 9 3 ≠ 0 ∨ w.extractLsb' 0 8 ≠ 0 →
      execute w s = .next (s.recorded 2 w))

/-- R119: the byte is emitted, folded and counted, or E_OVERFLOW is raised when the payload is full. -/
def Obligations.DataEmitsAndFolds : Prop :=
  ∀ (s : State) (b : Byte),
    (s.inFrame = true → s.cnt.toNat ≠ payloadLen s.size →
      exec (.data b) s = .next { s with
        crc := crcStep s.crc b, sum := s.sum + b, cnt := s.cnt + 1, held := s.held ++ [b] }) ∧
    (s.inFrame = true → s.cnt.toNat = payloadLen s.size →
      exec (.data b) s = .next (s.recorded 4 (0x00009000 ||| b.setWidth 32))) ∧
    (s.inFrame = false → exec (.data b) s = .next (s.recorded 3 (0x00009000 ||| b.setWidth 32))) ∧
    execute (0x00009000 ||| b.setWidth 32) s = exec (.data b) s ∧
    (∀ w : Word, w.extractLsb' 12 4 = 0x9 → w.extractLsb' 16 16 ≠ 0 ∨ w.extractLsb' 8 4 ≠ 0 →
      execute w s = .next (s.recorded 2 w))

/-- R120, with `P_SUM8_TLEN = 1`: `Size(SIZE) - CNT` pad bytes, folded and emitted, then the trailer of the whole payload.
The count ends at `Size(SIZE)` in every state that R42 admits. -/
def Obligations.EndPadsAndEmitsTrailer : Prop :=
  ∀ (s : State) (k : Nat), k = payloadLen s.size - s.cnt.toNat →
    (s.inFrame = true → s.mode = .crc16 →
      exec .endFrame s = .next { s with
        crc := crcFrom s.crc (List.replicate k s.fill), sum := sumFrom s.sum (List.replicate k s.fill),
        cnt := s.cnt + BitVec.ofNat 11 k, inFrame := false,
        held := s.held ++ List.replicate k s.fill ++
          [(crcFrom s.crc (List.replicate k s.fill)).extractLsb' 8 8, (crcFrom s.crc (List.replicate k s.fill)).extractLsb' 0 8] }) ∧
    (s.inFrame = true → s.mode = .sum8 →
      exec .endFrame s = .next { s with
        crc := crcFrom s.crc (List.replicate k s.fill), sum := sumFrom s.sum (List.replicate k s.fill),
        cnt := s.cnt + BitVec.ofNat 11 k, inFrame := false,
        held := s.held ++ List.replicate k s.fill ++ [sumFrom s.sum (List.replicate k s.fill)] }) ∧
    (s.cnt.toNat ≤ payloadLen s.size → (s.cnt + BitVec.ofNat 11 k).toNat = payloadLen s.size) ∧
    (s.inFrame = false → exec .endFrame s = .next (s.recorded 3 0x0000A000)) ∧
    execute 0x0000A000 s = exec .endFrame s ∧
    (∀ w : Word, w.extractLsb' 12 4 = 0xA → w ≠ 0x0000A000 → execute w s = .next (s.recorded 2 w))

/-- R121: legal in both frame states. -/
def Obligations.AbortAbandonsFrame : Prop :=
  ∀ s : State,
    exec .abort s = .next { s with inFrame := false } ∧
    execute 0x0000B000 s = exec .abort s ∧
    (∀ w : Word, w.extractLsb' 12 4 = 0xB → w ≠ 0x0000B000 → execute w s = .next (s.recorded 2 w))

/-- R131: legal in both frame states; a reserved word does not clear the record. -/
def Obligations.ClrerrClearsRecord : Prop :=
  ∀ s : State,
    exec .clrerr s = .next { s with err := false, errCode := 0, errInfo := 0x00000000 } ∧
    (∀ t : State, exec .clrerr s = .next t → errO t = false) ∧
    execute 0x0000C000 s = exec .clrerr s ∧
    (∀ w : Word, w.extractLsb' 12 4 = 0xC → w ≠ 0x0000C000 → execute w s = .next (s.recorded 2 w))

/-! ## The checksum engine -/

/-- R93: the ROM equals the listing entry for entry, and it is linear. -/
def Obligations.RomIsListedTableAndLinear : Prop :=
  (∀ i : Byte, romListing[i.toNat]? = some (crcTable i)) ∧ romListing.length = 256 ∧
  (∀ a c : Byte, crcTable (a ^^^ c) = crcTable a ^^^ crcTable c)

/-- R99: the table step equals the bitwise form for every CRC and byte. -/
def Obligations.CrcStepIsBitwiseForm : Prop :=
  ∀ (c : Half) (b : Byte),
    crcStep c b =
      (fun x : Half => if x.getLsbD 15 then (x <<< 1) ^^^ 0x1021 else x <<< 1)^[8] (c ^^^ (b.setWidth 16 <<< 8))

/-- R96: folding from 0 gives the bytes' sum modulo 256, whatever their order. -/
def Obligations.SumIsTotalModulo256 : Prop :=
  ∀ (s : State) (bytes : List Byte), s.sum = 0 →
    (bytes.foldl (fun s b => s.acc b) s).sum.toNat = (bytes.map BitVec.toNat).sum % 256 ∧
    (∀ others : List Byte, bytes.Perm others →
      (others.foldl (fun s b => s.acc b) s).sum = (bytes.foldl (fun s b => s.acc b) s).sum)

/-- R36, R97, R101: CLR and one UPD a byte leave in CHK the checksum of the bytes, and change nothing but the accumulators. -/
def Obligations.ChkIsChecksumOfFoldedBytes : Prop :=
  ∀ (s : State) (bytes : List Byte), s.inFrame = false →
    runCommands (.clr :: bytes.map Instr.upd) s =
      .next { s with crc := crcFrom 0 bytes, sum := sumFrom 0 bytes } ∧
    (s.mode = .crc16 →
      readReg 4 { s with crc := crcFrom 0 bytes, sum := sumFrom 0 bytes } = (crcFrom 0 bytes).setWidth 32) ∧
    (s.mode = .sum8 →
      readReg 4 { s with crc := crcFrom 0 bytes, sum := sumFrom 0 bytes } = (sumFrom 0 bytes).setWidth 32)

/-- R98: the bytes of the trailer, in order, and no register changed.
The clause for `P_SUM8_TLEN = 2` (0x00, then SUM) is no word of the source: R98 marks it as derived and unconfirmed (91_not_in_source.md N7), and the model takes it in log entry 7. -/
def Obligations.TrailerIsBigEndian : Prop :=
  ∀ s : State,
    (∀ p : Sum8TLen, s.mode = .crc16 →
      s.emitTrailer p = { s with held := s.held ++ [s.crc.extractLsb' 8 8, s.crc.extractLsb' 0 8] }) ∧
    (s.mode = .sum8 → s.emitTrailer .one = { s with held := s.held ++ [s.sum] }) ∧
    (s.mode = .sum8 → s.emitTrailer .two = { s with held := s.held ++ [0x00, s.sum] })

/-! ## The frame -/

/-- R113: from idle, an opening command, up to `Size(s)` DATA commands and END raise no error, emit exactly one frame; the frame has `Size(s) + 3 + TLen()` bytes, with `P_SUM8_TLEN = 1`.
The registers at the end follow R115, R116 and R120, and the error record R144.
`runCommands` executes one command after another and leaves their bytes held, so the consumer has taken none of them. -/
def Obligations.CommandsOfFrameEmitOneFrame : Prop :=
  ∀ (s : State) (i : Instr) (z : PSize) (n : Byte) (bytes : List Byte),
    s.inFrame = false → opensAs i s.blk = some (z, n) → bytes.length ≤ payloadLen z →
      (∃ t : State, runCommands (frameCommands i bytes) s = .next t ∧
        t.out = s.out ++ frameBytes s.mode s.fill z n bytes ∧ t.taken = s.taken ∧
        t.inFrame = false ∧ t.blk = n ∧ t.size = z ∧ t.cnt.toNat = payloadLen z ∧
        t.mode = s.mode ∧ t.fill = s.fill ∧ t.err = s.err ∧ t.errCode = s.errCode ∧ t.errInfo = s.errInfo ∧ t.tidx = s.tidx) ∧
      (frameBytes s.mode s.fill z n bytes).length = payloadLen z + 3 + (match s.mode with | .crc16 => 2 | .sum8 => 1)

/-- R122: two states with equal MODE and FILL, whatever else they hold, emit the same bytes for the same frame. -/
def Obligations.RetransmittedFrameIsIdentical : Prop :=
  ∀ (s₁ s₂ t₁ t₂ : State) (i₁ i₂ : Instr) (z : PSize) (n : Byte) (bytes : List Byte),
    s₁.inFrame = false → s₂.inFrame = false → s₁.mode = s₂.mode → s₁.fill = s₂.fill →
    opensAs i₁ s₁.blk = some (z, n) → opensAs i₂ s₂.blk = some (z, n) →
    runCommands (frameCommands i₁ bytes) s₁ = .next t₁ → runCommands (frameCommands i₂ bytes) s₂ = .next t₂ →
      ∃ emitted : List Byte, t₁.out = s₁.out ++ emitted ∧ t₂.out = s₂.out ++ emitted

/-- R117, R118, R125: over frames opened by BEGINN and BEGINR, BLK advances by one for each BEGINN, modulo 256, and BEGINR leaves it. -/
def Obligations.BlockNumberAdvancesOncePerBeginn : Prop :=
  ∀ (s : State) (frames : List (Instr × List Byte)),
    s.inFrame = false →
    (∀ f ∈ frames, ∃ z : PSize, (f.1 = .beginNext z ∨ f.1 = .beginAgain z) ∧ f.2.length ≤ payloadLen z) →
      ∃ t : State, runCommands (framesCommands frames) s = .next t ∧ t.inFrame = false ∧
        t.blk.toNat = (s.blk.toNat + (frames.filter (fun f => f.1 = .beginNext .s128 ∨ f.1 = .beginNext .s1024)).length) % 256

/-! ## Errors -/

/-- R142, R144, R147: every word written to CMD ends in a next state, whatever the state. -/
def Obligations.EveryWordCompletes : Prop :=
  ∀ (w : Word) (s : State), ∃ t : State, execute w s = .next t

/-- R143, R144: where a word makes ERR rise, the record is of that word, its code is one the word can raise, and nothing else has changed. -/
def Obligations.RaisedErrorChangesOnlyRecord : Prop :=
  ∀ (w : Word) (s t : State), execute w s = .next t → s.err = false → t.err = true →
    t = { s with err := true, errCode := t.errCode, errInfo := w } ∧ codeFits t.errCode w = true

/-- R143, R148: while ERR is 1, no word but CLRERR's changes the record. -/
def Obligations.FirstErrorRecordIsKept : Prop :=
  ∀ (w : Word) (s t : State), execute w s = .next t → s.err = true → w ≠ 0x0000C000 →
    t.err = true ∧ t.errCode = s.errCode ∧ t.errInfo = s.errInfo

/-- R144, "ERR gates nothing": two states that differ in the error record only end, after any word, in states that differ in the error record only. -/
def Obligations.ErrorRecordGatesNothing : Prop :=
  ∀ (w : Word) (s r t u : State), execute w s = .next t → execute w (s.withRecordOf r) = .next u →
    u = t.withRecordOf u

/-- R145: `err_o` is ERR; it rises only on a written word that is recorded, and falls only on CLRERR or reset. -/
def Obligations.ErrorOutputFollowsRecord : Prop :=
  (∀ s : State, errO s = s.err) ∧
  (∀ s t : State, step s = .next t → errO s = false → errO t = true →
    ∃ w rest, s.inputs = .write 0 w :: rest ∧ t.errInfo = w ∧ codeFits t.errCode w = true) ∧
  (∀ s t : State, step s = .next t → errO s = true → errO t = false →
    ∃ rest, s.inputs = .write 0 0x0000C000 :: rest ∨ s.inputs = .assertReset :: rest)

/-! ## The host bus -/

/-- A host write of a command's word to CMD, with no write in progress, is `exec` of that command once the access has left the pins (R52, R62, R142; the list of inputs is the model's, log entry 1). -/
def Obligations.StepRunsDecodedCommand : Prop :=
  ∀ (s : State) (w : Word) (rest : List Input) (i : Instr),
    s.inputs = .write 0 w :: rest → s.held = [] → decode w = .cmd i →
      step s = exec i { s with inputs := rest }

/-- The step after `withFetchWord` runs the command the decoder reads from the word (log entry 12). -/
def Obligations.FetchedWordRunsNext : Prop :=
  ∀ (s : State) (nbits w : Nat) (i : Instr), decodeTableWord nbits w = some i →
    step (s.withFetchWord nbits w) = exec i { s with taken := s.taken ++ s.held, held := [] } ∧
    (s.withFetchWord nbits w).out = s.out

/-- R39, R54: the value a read of each index returns, and the writes that are ignored. -/
def Obligations.RegisterMapReadsAndIgnoredWrites : Prop :=
  ∀ s : State,
    readReg 0 s = 0 ∧ readReg 1 s = statusView .one s ∧ readReg 2 s = s.crc.setWidth 32 ∧ readReg 3 s = s.sum.setWidth 32 ∧
    readReg 4 s = (match s.mode with | .crc16 => s.crc.setWidth 32 | .sum8 => s.sum.setWidth 32) ∧
    readReg 5 s = s.cnt.setWidth 32 ∧
    readReg 6 s = ((s.blk ^^^ 0xFF) ++ s.blk).setWidth 32 ∧
    readReg 7 s = s.fill.setWidth 32 ∧ readReg 8 s = s.errInfo ∧ readReg 9 s = s.tidx.setWidth 32 ∧
    readReg 10 s = (crcTable s.tidx).setWidth 32 ∧
    (∀ idx : BitVec 4, 11 ≤ idx.toNat → readReg idx s = 0) ∧
    (∀ (idx : BitVec 4) (v : Word), idx ≠ 0 → idx ≠ 9 → busWrite idx v s = .next s)

/-- R35: STATUS bit by bit, for both values of `P_SUM8_TLEN`. -/
def Obligations.StatusFieldsByBitPosition : Prop :=
  ∀ (p : Sum8TLen) (s : State),
    ((statusView p s).getLsbD 0 = true ↔ s.mode = .crc16) ∧
    (statusView p s).getLsbD 1 = s.inFrame ∧
    ((statusView p s).getLsbD 2 = true ↔ s.size = .s1024) ∧
    (statusView p s).getLsbD 3 = s.err ∧
    (statusView p s).extractLsb' 4 4 = s.errCode ∧
    (statusView p s).extractLsb' 8 2 = (if s.mode = .crc16 ∨ p = .two then 0b10 else 0b01) ∧
    (statusView p s).extractLsb' 10 22 = 0

/-- R51: a read returns the register's value and changes no state, so it may be repeated with the same result. -/
def Obligations.ReadsHaveNoSideEffect : Prop :=
  ∀ (s : State) (idx : BitVec 4) (rest : List Input), s.held = [] →
    (s.inputs = .read idx :: rest →
      step s = .next { s with inputs := rest, busData := s.busData ++ [readReg idx s] }) ∧
    (s.inputs = .read idx :: .read idx :: rest →
      Host.Core.run Sys2Proof.core 2 s = .next { s with inputs := rest, busData := s.busData ++ [readReg idx s, readReg idx s] })

/-- R52, R38, R167: a write to index 9 takes bits [7:0] and nothing else, and the next read of TDATA sees it. -/
def Obligations.TidxWriteSelectsTableEntry : Prop :=
  ∀ (s : State) (v : Word) (rest : List Input), s.held = [] →
    (s.inputs = .write 9 v :: rest → step s = .next { s with inputs := rest, tidx := v.extractLsb' 0 8 }) ∧
    (s.inputs = .write 9 v :: .read 10 :: rest →
      Host.Core.run Sys2Proof.core 2 s = .next { s with
        inputs := rest, tidx := v.extractLsb' 0 8, busData := s.busData ++ [(crcTable (v.extractLsb' 0 8)).setWidth 32] })

/-- R63 and spec/93_implementation_defined.md I5: a host access issued while a CMD write is in progress is refused by name (the model's choice of outcome, log entry 4). -/
def Obligations.AccessDuringCommandIsRefused : Prop :=
  ∀ (s : State) (idx : BitVec 4) (v : Word) (rest : List Input), s.held ≠ [] →
    (s.inputs = .read idx :: rest → step s = .refused .accessDuringCommand) ∧
    (s.inputs = .write idx v :: rest → step s = .refused .accessDuringCommand)

/-- R6, R64: with nothing at the pins the CFE stays as it is, idle or stalled (the model's choice of a step that waits, log entry 11). -/
def Obligations.NothingHappensWithoutInput : Prop :=
  ∀ s : State, s.inputs = [] → step s = .next s

/-! ## The output port -/

/-- R59: a byte is transferred where valid and ready are both high, the oldest first; no byte is dropped. -/
def Obligations.ConsumerTakesOldestByte : Prop :=
  ∀ (s : State) (rest : List Input), s.inputs = .take :: rest →
    (∀ (b : Byte) (more : List Byte), s.held = b :: more →
      portValid s = true ∧ portData s = some b ∧
      step s = .next { s with inputs := rest, taken := s.taken ++ [b], held := more }) ∧
    (s.held = [] → portValid s = false ∧ step s = .next { s with inputs := rest }) ∧
    (∀ t : State, step s = .next t → t.out = s.out)

/-- R52, R59: a CMD write completes once the consumer has taken every byte it emitted, in order, and not before. -/
def Obligations.WriteCompletesWhenBytesAreTaken : Prop :=
  ∀ (s t : State) (w : Word) (k : Nat) (rest : List Input),
    s.held = [] → s.inputs = .write 0 w :: (List.replicate k .take ++ rest) →
    execute w { s with inputs := rest } = .next t →
      (k ≤ t.held.length →
        Host.Core.run Sys2Proof.core (k + 1) s = .next { t with taken := s.taken ++ t.held.take k, held := t.held.drop k }) ∧
      (t.held.length ≤ k → Host.Core.run Sys2Proof.core (k + 1) s = .next { t with taken := s.taken ++ t.held, held := [] })

/-- R58: in every step, what the consumer has is extended at its end only; and `OUT` is extended at its end only unless reset cuts a command (R162; log entry 3). -/
def Obligations.OutputOnlyGrows : Prop :=
  ∀ s t : State, step s = .next t →
    (∃ more : List Byte, t.taken = s.taken ++ more) ∧
    ((∀ rest : List Input, s.inputs ≠ .assertReset :: rest) → ∃ more : List Byte, t.out = s.out ++ more)

/-! ## Reset -/

/-- R41, R160: the state after reset, and the registers after a reset asserted in any state. -/
def Obligations.ResetSetsEveryRegister : Prop :=
  (∀ t : State, t = State.reset ∨ (∃ s rest, s.inputs = .assertReset :: rest ∧ step s = .next t) →
    t.mode = .sum8 ∧ t.crc = 0x0000 ∧ t.sum = 0x00 ∧ t.fill = 0x1A ∧ t.inFrame = false ∧ t.size = .s128 ∧ t.cnt = 0 ∧
    t.blk = 0xFF ∧ t.err = false ∧ t.errCode = 0 ∧ t.errInfo = 0x00000000 ∧ t.tidx = 0x00 ∧ t.held = [] ∧
    errO t = false ∧ readReg 1 t = 0x00000100) ∧
  State.reset.out = [] ∧
  (∀ (s : State) (rest : List Input), s.inputs = .assertReset :: rest → ∃ t, step s = .next t)

/-- R162 and spec/93_implementation_defined.md I4: a reset while a command is executing leaves the bytes already delivered, any prefix of those the command would have emitted, and the registers at their reset values. -/
def Obligations.ResetCutsCommandAfterAnyPrefix : Prop :=
  ∀ (s t : State) (w : Word) (k : Nat) (rest : List Input),
    s.held = [] → s.inputs = .write 0 w :: (List.replicate k .take ++ .assertReset :: rest) →
    execute w { s with inputs := rest } = .next t → k ≤ t.held.length →
      Host.Core.run Sys2Proof.core (k + 2) s = .next { State.reset with
        taken := s.taken ++ t.held.take k, inputs := rest, busData := s.busData }

/-! ## Invariants and rules about the whole machine -/

/-- R42, its first three points: the count's bound, the error record's shape and the bytes of an open frame are kept by every step, from every state that has them. -/
def Obligations.StepKeepsInvariant : Prop :=
  ∀ s t : State, s.Inv → step s = .next t → t.Inv

/-- R42, R41: they hold after reset. -/
def Obligations.InvariantHoldsAtReset : Prop := State.reset.Inv ∧ State.reset.RecordFits

/-- R42, third point, step by step: the step that opens a frame puts its three opening bytes after all that was there, and every step that keeps it open, whatever its input, leaves it open over the same bytes, with the same size and number, and its payload longer by at most one byte. -/
def Obligations.OpenFrameGrowsByPayloadOnly : Prop :=
  (∀ s t : State, step s = .next t → s.inFrame = false → t.inFrame = true → t.OpenedAt s.out ∧ t.cnt = 0) ∧
  (∀ (s t : State) (pre : List Byte), s.cnt.toNat ≤ payloadLen s.size → s.OpenedAt pre →
    step s = .next t → s.inFrame = true → t.inFrame = true →
      t.OpenedAt pre ∧ t.size = s.size ∧ t.blk = s.blk ∧ (t.cnt = s.cnt ∨ t.cnt.toNat = s.cnt.toNat + 1))

/-- R42, third point, over whole runs: whatever happens at the pins between the step that opens a frame and the END that closes it, what `OUT` has gained from the one to the other is exactly one frame of R113, its payload padded with FILL. -/
def Obligations.SectionFromBeginToEndIsOneFrame : Prop :=
  ∀ (s u : State) (k : Nat) (rest : List Input),
    s.inFrame = false →
    (∀ j : Nat, j ≤ k → ∃ v : State, Host.Core.run Sys2Proof.core (j + 1) s = .next v ∧ v.inFrame = true) →
    Host.Core.run Sys2Proof.core (k + 1) s = .next u → u.held = [] → u.inputs = .write 0 0x0000A000 :: rest →
      ∃ (t : State) (payload : List Byte),
        Host.Core.run Sys2Proof.core (k + 2) s = .next t ∧ t.inFrame = false ∧
        payload.length = u.cnt.toNat ∧ payload.length ≤ payloadLen t.size ∧
        t.out = s.out ++ frameBytes s.mode s.fill t.size t.blk payload

/-- R31, R32, R140: every step keeps the record true to its word. -/
def Obligations.StepKeepsRecordFitting : Prop :=
  ∀ s t : State, s.RecordFits → step s = .next t → t.RecordFits

/-- R42, "MODE and FILL do not change while `INFRAME = 1`", but for reset (R160). -/
def Obligations.ModeAndFillFixedInFrame : Prop :=
  ∀ s t : State, step s = .next t → s.inFrame = true → (∀ rest : List Input, s.inputs ≠ .assertReset :: rest) →
    t.mode = s.mode ∧ t.fill = s.fill

/-- R26, R123: only the BEGIN family opens a frame; only END, ABORT and reset close one. -/
def Obligations.OnlyBeginEndAbortMoveFrameState : Prop :=
  ∀ s t : State, step s = .next t →
    (s.inFrame = false → t.inFrame = true →
      ∃ w rest i, s.inputs = .write 0 w :: rest ∧ decode w = .cmd i ∧ opensFrame i = true) ∧
    (s.inFrame = true → t.inFrame = false →
      (∃ rest, s.inputs = .assertReset :: rest) ∨
      (∃ w rest i, s.inputs = .write 0 w :: rest ∧ decode w = .cmd i ∧ closesFrame i = true))

/-- R22, R25, R27, R29, R33: which commands write each of these registers; no command touches TIDX, the bytes already taken, or the outside world. -/
def Obligations.RegistersHaveTheirOnlyWriters : Prop :=
  ∀ (i : Instr) (s t : State), exec i s = .next t →
    (t.mode ≠ s.mode → ∃ m, i = .setmode m) ∧
    (t.fill ≠ s.fill → ∃ f, i = .setfill f) ∧
    (t.size ≠ s.size → opensFrame i = true) ∧
    (t.blk ≠ s.blk → opensFrame i = true) ∧
    t.tidx = s.tidx ∧ t.taken = s.taken ∧ t.inputs = s.inputs ∧ t.busData = s.busData

/-! ## Assembler lines -/

/-- R77, R78, R79: every line of the tables, the accesses it stands for, and the lines that are assembly errors.
A line holds its numbers as written and a text as its bytes, a register stands as its index, and `SourceLine.wf` takes for assembly errors also the operands R77 gives no word for: a mode other than 0 and 1, a word above 32 bits, an index above 15 (the model's choices, log entry 14). -/
def Obligations.LinesAssembleToTheirWords : Prop :=
  -- R77: the lines whose operands are names or sizes
  (assembleLine .nop = some [.write 0 0x00000000] ∧
    assembleLine .clr = some [.write 0 0x00001000] ∧
    assembleLine .trl = some [.write 0 0x00003000] ∧
    assembleLine (.setmode 0) = some [.write 0 0x00004000] ∧
    assembleLine (.setmode 1) = some [.write 0 0x00004001] ∧
    assembleLine (.beginNext 128) = some [.write 0 0x00007000] ∧
    assembleLine (.beginNext 1024) = some [.write 0 0x00007100] ∧
    assembleLine (.beginAgain 128) = some [.write 0 0x00008000] ∧
    assembleLine (.beginAgain 1024) = some [.write 0 0x00008100] ∧
    assembleLine .endFrame = some [.write 0 0x0000A000] ∧
    assembleLine .abort = some [.write 0 0x0000B000] ∧
    assembleLine .clrerr = some [.write 0 0x0000C000]) ∧
  -- R77: the lines with one byte operand
  (∀ n : Nat, n ≤ 0xFF →
    assembleLine (.upd [n]) = some [.write 0 (BitVec.ofNat 32 (0x2000 + n))] ∧
    assembleLine (.setfill n) = some [.write 0 (BitVec.ofNat 32 (0x5000 + n))] ∧
    assembleLine (.beginFrame 128 n) = some [.write 0 (BitVec.ofNat 32 (0x6000 + n))] ∧
    assembleLine (.beginFrame 1024 n) = some [.write 0 (BitVec.ofNat 32 (0x6100 + n))] ∧
    assembleLine (.data [n]) = some [.write 0 (BitVec.ofNat 32 (0x9000 + n))]) ∧
  -- R79: several bytes or a text, and CKSUM
  (∀ bytes : List Nat, (∀ b ∈ bytes, b ≤ 0xFF) →
    assembleLine (.upd bytes) = some (bytes.map (fun b => .write 0 (BitVec.ofNat 32 (0x2000 + b)))) ∧
    assembleLine (.data bytes) = some (bytes.map (fun b => .write 0 (BitVec.ofNat 32 (0x9000 + b)))) ∧
    assembleLine (.cksum bytes) =
      some (.write 0 0x00001000 :: bytes.map (fun b => .write 0 (BitVec.ofNat 32 (0x2000 + b))))) ∧
  -- R79: FRAME and NAMEBLK
  (∀ (size n : Nat) (bytes : List Nat), (SourceLine.frame size n bytes).wf = true →
    ∃ opening payload, assembleLine (.beginFrame size n) = some opening ∧ assembleLine (.data bytes) = some payload ∧
      assembleLine (.frame size n bytes) = some (opening ++ payload ++ [.write 0 0x0000A000])) ∧
  (∀ name : List Nat, (SourceLine.nameblk name).wf = true →
    ∃ payload, assembleLine (.data name) = some payload ∧
      assembleLine (.nameblk name) =
        some ([.write 0 0x00005000, .write 0 0x00006000] ++ payload ++ [.write 0 0x0000A000, .write 0 0x0000501A])) ∧
  -- R77, R78: any word, and the other accesses
  (∀ w : Word, assembleLine (.word w.toNat) = some [.write 0 w]) ∧
  (∀ (idx : BitVec 4) (v : Word), assembleLine (.wr idx.toNat v.toNat) = some [.write idx v]) ∧
  (∀ idx : BitVec 4, assembleLine (.rd idx.toNat) = some [.read idx]) ∧
  -- R77: the assembly errors
  (∀ (size n : Nat) (bytes : List Nat), size ≠ 128 → size ≠ 1024 →
    assembleLine (.beginFrame size n) = none ∧ assembleLine (.beginNext size) = none ∧
    assembleLine (.beginAgain size) = none ∧ assembleLine (.frame size n bytes) = none) ∧
  (∀ (size n : Nat) (bytes : List Nat), 0xFF < n →
    assembleLine (.setfill n) = none ∧ assembleLine (.beginFrame size n) = none ∧
    assembleLine (.frame size n bytes) = none) ∧
  (∀ (size n : Nat) (bytes : List Nat), (∃ b ∈ bytes, 0xFF < b) →
    assembleLine (.upd bytes) = none ∧ assembleLine (.data bytes) = none ∧ assembleLine (.cksum bytes) = none ∧
    assembleLine (.frame size n bytes) = none ∧ assembleLine (.nameblk bytes) = none) ∧
  (∀ line : SourceLine, line.wf = false → assembleLine line = none)
end

