-- ==== Sys2Proof/Laws/Decode.lean ====
section
/-! SUPPORT. Fields and bits of a word, and what a decoded word has (spec/30_encoding.md R70, R72, R74). -/

namespace Sys2Proof

/-- A bit inside a field is the field's bit. -/
theorem bit_of_field {w : Word} {lo len : Nat} {v : BitVec len} (h : w.extractLsb' lo len = v) (j : Nat)
    (h₁ : lo ≤ j) (h₂ : j < lo + len) : w.getLsbD j = v.getLsbD (j - lo) := by
  rw [← h]
  have e₁ : j - lo < len := by omega
  have e₂ : lo + (j - lo) = j := by omega
  simp [e₁, e₂]

/-- The opcode looked up is the one whose "match" has the field's value (R72). -/
theorem ofField_value {f : BitVec 4} {op : Opcode} (h : Opcode.ofField f = some op) : f = op.matchBits.extractLsb' 12 4 := by
  revert f op; decide +revert

/-- No opcode is assigned to 0xD, 0xE and 0xF, and one is to every other value (R72). -/
theorem ofField_none (f : BitVec 4) : Opcode.ofField f = none ↔ 0xD ≤ f.toNat := by
  revert f; decide

/-- A row's command has the row's opcode. -/
@[simp] theorem command_opcode (op : Opcode) (w : Word) : (op.command w).opcode = op := by
  cases op <;> rfl

/-- A word spells a command exactly when its opcode is assigned and its fixed bits match (R74). -/
theorem decode_cmd_iff (w : Word) (i : Instr) :
    decode w = .cmd i ↔ ∃ op, Opcode.ofField (opField w) = some op ∧ w &&& op.mask = op.matchBits ∧ op.command w = i := by
  unfold decode
  cases Opcode.ofField (opField w) with
  | none => simp
  | some op => by_cases h : w &&& op.mask = op.matchBits <;> simp [h]

end Sys2Proof
end

