-- ==== Sys2Proof/Laws/State.lean ====
section
/-! SUPPORT. What each update of the state does to each field: one lemma a field, true by definition. -/

namespace Sys2Proof.Machine

/-! ### acc -/

@[simp] theorem State.acc_mode (b : Byte) (s : State) : (s.acc b).mode = s.mode := rfl
@[simp] theorem State.acc_crc (b : Byte) (s : State) : (s.acc b).crc = crcStep s.crc b := rfl
@[simp] theorem State.acc_sum (b : Byte) (s : State) : (s.acc b).sum = s.sum + b := rfl
@[simp] theorem State.acc_fill (b : Byte) (s : State) : (s.acc b).fill = s.fill := rfl
@[simp] theorem State.acc_inFrame (b : Byte) (s : State) : (s.acc b).inFrame = s.inFrame := rfl
@[simp] theorem State.acc_size (b : Byte) (s : State) : (s.acc b).size = s.size := rfl
@[simp] theorem State.acc_cnt (b : Byte) (s : State) : (s.acc b).cnt = s.cnt := rfl
@[simp] theorem State.acc_blk (b : Byte) (s : State) : (s.acc b).blk = s.blk := rfl
@[simp] theorem State.acc_err (b : Byte) (s : State) : (s.acc b).err = s.err := rfl
@[simp] theorem State.acc_errCode (b : Byte) (s : State) : (s.acc b).errCode = s.errCode := rfl
@[simp] theorem State.acc_errInfo (b : Byte) (s : State) : (s.acc b).errInfo = s.errInfo := rfl
@[simp] theorem State.acc_tidx (b : Byte) (s : State) : (s.acc b).tidx = s.tidx := rfl
@[simp] theorem State.acc_taken (b : Byte) (s : State) : (s.acc b).taken = s.taken := rfl
@[simp] theorem State.acc_held (b : Byte) (s : State) : (s.acc b).held = s.held := rfl
@[simp] theorem State.acc_inputs (b : Byte) (s : State) : (s.acc b).inputs = s.inputs := rfl
@[simp] theorem State.acc_busData (b : Byte) (s : State) : (s.acc b).busData = s.busData := rfl

/-! ### clearAcc -/

@[simp] theorem State.clearAcc_mode (s : State) : (s.clearAcc).mode = s.mode := rfl
@[simp] theorem State.clearAcc_crc (s : State) : (s.clearAcc).crc = 0x0000 := rfl
@[simp] theorem State.clearAcc_sum (s : State) : (s.clearAcc).sum = 0x00 := rfl
@[simp] theorem State.clearAcc_fill (s : State) : (s.clearAcc).fill = s.fill := rfl
@[simp] theorem State.clearAcc_inFrame (s : State) : (s.clearAcc).inFrame = s.inFrame := rfl
@[simp] theorem State.clearAcc_size (s : State) : (s.clearAcc).size = s.size := rfl
@[simp] theorem State.clearAcc_cnt (s : State) : (s.clearAcc).cnt = s.cnt := rfl
@[simp] theorem State.clearAcc_blk (s : State) : (s.clearAcc).blk = s.blk := rfl
@[simp] theorem State.clearAcc_err (s : State) : (s.clearAcc).err = s.err := rfl
@[simp] theorem State.clearAcc_errCode (s : State) : (s.clearAcc).errCode = s.errCode := rfl
@[simp] theorem State.clearAcc_errInfo (s : State) : (s.clearAcc).errInfo = s.errInfo := rfl
@[simp] theorem State.clearAcc_tidx (s : State) : (s.clearAcc).tidx = s.tidx := rfl
@[simp] theorem State.clearAcc_taken (s : State) : (s.clearAcc).taken = s.taken := rfl
@[simp] theorem State.clearAcc_held (s : State) : (s.clearAcc).held = s.held := rfl
@[simp] theorem State.clearAcc_inputs (s : State) : (s.clearAcc).inputs = s.inputs := rfl
@[simp] theorem State.clearAcc_busData (s : State) : (s.clearAcc).busData = s.busData := rfl

/-! ### emit -/

@[simp] theorem State.emit_mode (b : Byte) (s : State) : (s.emit b).mode = s.mode := rfl
@[simp] theorem State.emit_crc (b : Byte) (s : State) : (s.emit b).crc = s.crc := rfl
@[simp] theorem State.emit_sum (b : Byte) (s : State) : (s.emit b).sum = s.sum := rfl
@[simp] theorem State.emit_fill (b : Byte) (s : State) : (s.emit b).fill = s.fill := rfl
@[simp] theorem State.emit_inFrame (b : Byte) (s : State) : (s.emit b).inFrame = s.inFrame := rfl
@[simp] theorem State.emit_size (b : Byte) (s : State) : (s.emit b).size = s.size := rfl
@[simp] theorem State.emit_cnt (b : Byte) (s : State) : (s.emit b).cnt = s.cnt := rfl
@[simp] theorem State.emit_blk (b : Byte) (s : State) : (s.emit b).blk = s.blk := rfl
@[simp] theorem State.emit_err (b : Byte) (s : State) : (s.emit b).err = s.err := rfl
@[simp] theorem State.emit_errCode (b : Byte) (s : State) : (s.emit b).errCode = s.errCode := rfl
@[simp] theorem State.emit_errInfo (b : Byte) (s : State) : (s.emit b).errInfo = s.errInfo := rfl
@[simp] theorem State.emit_tidx (b : Byte) (s : State) : (s.emit b).tidx = s.tidx := rfl
@[simp] theorem State.emit_taken (b : Byte) (s : State) : (s.emit b).taken = s.taken := rfl
@[simp] theorem State.emit_held (b : Byte) (s : State) : (s.emit b).held = s.held ++ [b] := rfl
@[simp] theorem State.emit_inputs (b : Byte) (s : State) : (s.emit b).inputs = s.inputs := rfl
@[simp] theorem State.emit_busData (b : Byte) (s : State) : (s.emit b).busData = s.busData := rfl

/-! ### openFrame -/

@[simp] theorem State.openFrame_mode (z : PSize) (n : Byte) (s : State) : (s.openFrame z n).mode = s.mode := rfl
@[simp] theorem State.openFrame_crc (z : PSize) (n : Byte) (s : State) : (s.openFrame z n).crc = 0x0000 := rfl
@[simp] theorem State.openFrame_sum (z : PSize) (n : Byte) (s : State) : (s.openFrame z n).sum = 0x00 := rfl
@[simp] theorem State.openFrame_fill (z : PSize) (n : Byte) (s : State) : (s.openFrame z n).fill = s.fill := rfl
@[simp] theorem State.openFrame_inFrame (z : PSize) (n : Byte) (s : State) : (s.openFrame z n).inFrame = true := rfl
@[simp] theorem State.openFrame_size (z : PSize) (n : Byte) (s : State) : (s.openFrame z n).size = z := rfl
@[simp] theorem State.openFrame_cnt (z : PSize) (n : Byte) (s : State) : (s.openFrame z n).cnt = 0 := rfl
@[simp] theorem State.openFrame_blk (z : PSize) (n : Byte) (s : State) : (s.openFrame z n).blk = n := rfl
@[simp] theorem State.openFrame_err (z : PSize) (n : Byte) (s : State) : (s.openFrame z n).err = s.err := rfl
@[simp] theorem State.openFrame_errCode (z : PSize) (n : Byte) (s : State) : (s.openFrame z n).errCode = s.errCode := rfl
@[simp] theorem State.openFrame_errInfo (z : PSize) (n : Byte) (s : State) : (s.openFrame z n).errInfo = s.errInfo := rfl
@[simp] theorem State.openFrame_tidx (z : PSize) (n : Byte) (s : State) : (s.openFrame z n).tidx = s.tidx := rfl
@[simp] theorem State.openFrame_taken (z : PSize) (n : Byte) (s : State) : (s.openFrame z n).taken = s.taken := rfl
@[simp] theorem State.openFrame_held (z : PSize) (n : Byte) (s : State) : (s.openFrame z n).held = s.held ++ [headerByte z] ++ [n] ++ [blockComplement n] := rfl
@[simp] theorem State.openFrame_inputs (z : PSize) (n : Byte) (s : State) : (s.openFrame z n).inputs = s.inputs := rfl
@[simp] theorem State.openFrame_busData (z : PSize) (n : Byte) (s : State) : (s.openFrame z n).busData = s.busData := rfl

/-! ### payloadByte -/

@[simp] theorem State.payloadByte_mode (b : Byte) (s : State) : (s.payloadByte b).mode = s.mode := rfl
@[simp] theorem State.payloadByte_crc (b : Byte) (s : State) : (s.payloadByte b).crc = crcStep s.crc b := rfl
@[simp] theorem State.payloadByte_sum (b : Byte) (s : State) : (s.payloadByte b).sum = s.sum + b := rfl
@[simp] theorem State.payloadByte_fill (b : Byte) (s : State) : (s.payloadByte b).fill = s.fill := rfl
@[simp] theorem State.payloadByte_inFrame (b : Byte) (s : State) : (s.payloadByte b).inFrame = s.inFrame := rfl
@[simp] theorem State.payloadByte_size (b : Byte) (s : State) : (s.payloadByte b).size = s.size := rfl
@[simp] theorem State.payloadByte_cnt (b : Byte) (s : State) : (s.payloadByte b).cnt = s.cnt + 1 := rfl
@[simp] theorem State.payloadByte_blk (b : Byte) (s : State) : (s.payloadByte b).blk = s.blk := rfl
@[simp] theorem State.payloadByte_err (b : Byte) (s : State) : (s.payloadByte b).err = s.err := rfl
@[simp] theorem State.payloadByte_errCode (b : Byte) (s : State) : (s.payloadByte b).errCode = s.errCode := rfl
@[simp] theorem State.payloadByte_errInfo (b : Byte) (s : State) : (s.payloadByte b).errInfo = s.errInfo := rfl
@[simp] theorem State.payloadByte_tidx (b : Byte) (s : State) : (s.payloadByte b).tidx = s.tidx := rfl
@[simp] theorem State.payloadByte_taken (b : Byte) (s : State) : (s.payloadByte b).taken = s.taken := rfl
@[simp] theorem State.payloadByte_held (b : Byte) (s : State) : (s.payloadByte b).held = s.held ++ [b] := rfl
@[simp] theorem State.payloadByte_inputs (b : Byte) (s : State) : (s.payloadByte b).inputs = s.inputs := rfl
@[simp] theorem State.payloadByte_busData (b : Byte) (s : State) : (s.payloadByte b).busData = s.busData := rfl

/-! ### closeFrame -/

@[simp] theorem State.closeFrame_mode (s : State) : (s.closeFrame).mode = s.mode := rfl
@[simp] theorem State.closeFrame_crc (s : State) : (s.closeFrame).crc = s.crc := rfl
@[simp] theorem State.closeFrame_sum (s : State) : (s.closeFrame).sum = s.sum := rfl
@[simp] theorem State.closeFrame_fill (s : State) : (s.closeFrame).fill = s.fill := rfl
@[simp] theorem State.closeFrame_inFrame (s : State) : (s.closeFrame).inFrame = false := rfl
@[simp] theorem State.closeFrame_size (s : State) : (s.closeFrame).size = s.size := rfl
@[simp] theorem State.closeFrame_cnt (s : State) : (s.closeFrame).cnt = s.cnt := rfl
@[simp] theorem State.closeFrame_blk (s : State) : (s.closeFrame).blk = s.blk := rfl
@[simp] theorem State.closeFrame_err (s : State) : (s.closeFrame).err = s.err := rfl
@[simp] theorem State.closeFrame_errCode (s : State) : (s.closeFrame).errCode = s.errCode := rfl
@[simp] theorem State.closeFrame_errInfo (s : State) : (s.closeFrame).errInfo = s.errInfo := rfl
@[simp] theorem State.closeFrame_tidx (s : State) : (s.closeFrame).tidx = s.tidx := rfl
@[simp] theorem State.closeFrame_taken (s : State) : (s.closeFrame).taken = s.taken := rfl
@[simp] theorem State.closeFrame_held (s : State) : (s.closeFrame).held = s.held := rfl
@[simp] theorem State.closeFrame_inputs (s : State) : (s.closeFrame).inputs = s.inputs := rfl
@[simp] theorem State.closeFrame_busData (s : State) : (s.closeFrame).busData = s.busData := rfl

/-! ### clearRecord -/

@[simp] theorem State.clearRecord_mode (s : State) : (s.clearRecord).mode = s.mode := rfl
@[simp] theorem State.clearRecord_crc (s : State) : (s.clearRecord).crc = s.crc := rfl
@[simp] theorem State.clearRecord_sum (s : State) : (s.clearRecord).sum = s.sum := rfl
@[simp] theorem State.clearRecord_fill (s : State) : (s.clearRecord).fill = s.fill := rfl
@[simp] theorem State.clearRecord_inFrame (s : State) : (s.clearRecord).inFrame = s.inFrame := rfl
@[simp] theorem State.clearRecord_size (s : State) : (s.clearRecord).size = s.size := rfl
@[simp] theorem State.clearRecord_cnt (s : State) : (s.clearRecord).cnt = s.cnt := rfl
@[simp] theorem State.clearRecord_blk (s : State) : (s.clearRecord).blk = s.blk := rfl
@[simp] theorem State.clearRecord_err (s : State) : (s.clearRecord).err = false := rfl
@[simp] theorem State.clearRecord_errCode (s : State) : (s.clearRecord).errCode = 0 := rfl
@[simp] theorem State.clearRecord_errInfo (s : State) : (s.clearRecord).errInfo = 0x00000000 := rfl
@[simp] theorem State.clearRecord_tidx (s : State) : (s.clearRecord).tidx = s.tidx := rfl
@[simp] theorem State.clearRecord_taken (s : State) : (s.clearRecord).taken = s.taken := rfl
@[simp] theorem State.clearRecord_held (s : State) : (s.clearRecord).held = s.held := rfl
@[simp] theorem State.clearRecord_inputs (s : State) : (s.clearRecord).inputs = s.inputs := rfl
@[simp] theorem State.clearRecord_busData (s : State) : (s.clearRecord).busData = s.busData := rfl

/-! ### hardReset -/

@[simp] theorem State.hardReset_mode (s : State) : (s.hardReset).mode = .sum8 := rfl
@[simp] theorem State.hardReset_crc (s : State) : (s.hardReset).crc = 0x0000 := rfl
@[simp] theorem State.hardReset_sum (s : State) : (s.hardReset).sum = 0x00 := rfl
@[simp] theorem State.hardReset_fill (s : State) : (s.hardReset).fill = 0x1A := rfl
@[simp] theorem State.hardReset_inFrame (s : State) : (s.hardReset).inFrame = false := rfl
@[simp] theorem State.hardReset_size (s : State) : (s.hardReset).size = .s128 := rfl
@[simp] theorem State.hardReset_cnt (s : State) : (s.hardReset).cnt = 0 := rfl
@[simp] theorem State.hardReset_blk (s : State) : (s.hardReset).blk = 0xFF := rfl
@[simp] theorem State.hardReset_err (s : State) : (s.hardReset).err = false := rfl
@[simp] theorem State.hardReset_errCode (s : State) : (s.hardReset).errCode = 0 := rfl
@[simp] theorem State.hardReset_errInfo (s : State) : (s.hardReset).errInfo = 0x00000000 := rfl
@[simp] theorem State.hardReset_tidx (s : State) : (s.hardReset).tidx = 0x00 := rfl
@[simp] theorem State.hardReset_taken (s : State) : (s.hardReset).taken = s.taken := rfl
@[simp] theorem State.hardReset_held (s : State) : (s.hardReset).held = [] := rfl
@[simp] theorem State.hardReset_inputs (s : State) : (s.hardReset).inputs = s.inputs := rfl
@[simp] theorem State.hardReset_busData (s : State) : (s.hardReset).busData = s.busData := rfl

/-! ### withCmdWrite -/

@[simp] theorem State.withCmdWrite_mode (w : Word) (s : State) : (s.withCmdWrite w).mode = s.mode := rfl
@[simp] theorem State.withCmdWrite_crc (w : Word) (s : State) : (s.withCmdWrite w).crc = s.crc := rfl
@[simp] theorem State.withCmdWrite_sum (w : Word) (s : State) : (s.withCmdWrite w).sum = s.sum := rfl
@[simp] theorem State.withCmdWrite_fill (w : Word) (s : State) : (s.withCmdWrite w).fill = s.fill := rfl
@[simp] theorem State.withCmdWrite_inFrame (w : Word) (s : State) : (s.withCmdWrite w).inFrame = s.inFrame := rfl
@[simp] theorem State.withCmdWrite_size (w : Word) (s : State) : (s.withCmdWrite w).size = s.size := rfl
@[simp] theorem State.withCmdWrite_cnt (w : Word) (s : State) : (s.withCmdWrite w).cnt = s.cnt := rfl
@[simp] theorem State.withCmdWrite_blk (w : Word) (s : State) : (s.withCmdWrite w).blk = s.blk := rfl
@[simp] theorem State.withCmdWrite_err (w : Word) (s : State) : (s.withCmdWrite w).err = s.err := rfl
@[simp] theorem State.withCmdWrite_errCode (w : Word) (s : State) : (s.withCmdWrite w).errCode = s.errCode := rfl
@[simp] theorem State.withCmdWrite_errInfo (w : Word) (s : State) : (s.withCmdWrite w).errInfo = s.errInfo := rfl
@[simp] theorem State.withCmdWrite_tidx (w : Word) (s : State) : (s.withCmdWrite w).tidx = s.tidx := rfl
@[simp] theorem State.withCmdWrite_taken (w : Word) (s : State) : (s.withCmdWrite w).taken = s.taken ++ s.held := rfl
@[simp] theorem State.withCmdWrite_held (w : Word) (s : State) : (s.withCmdWrite w).held = [] := rfl
@[simp] theorem State.withCmdWrite_inputs (w : Word) (s : State) : (s.withCmdWrite w).inputs = .write 0 w :: s.inputs := rfl
@[simp] theorem State.withCmdWrite_busData (w : Word) (s : State) : (s.withCmdWrite w).busData = s.busData := rfl

/-! ### busRead -/

@[simp] theorem busRead_mode (idx : BitVec 4) (s : State) : (busRead idx s).mode = s.mode := rfl
@[simp] theorem busRead_crc (idx : BitVec 4) (s : State) : (busRead idx s).crc = s.crc := rfl
@[simp] theorem busRead_sum (idx : BitVec 4) (s : State) : (busRead idx s).sum = s.sum := rfl
@[simp] theorem busRead_fill (idx : BitVec 4) (s : State) : (busRead idx s).fill = s.fill := rfl
@[simp] theorem busRead_inFrame (idx : BitVec 4) (s : State) : (busRead idx s).inFrame = s.inFrame := rfl
@[simp] theorem busRead_size (idx : BitVec 4) (s : State) : (busRead idx s).size = s.size := rfl
@[simp] theorem busRead_cnt (idx : BitVec 4) (s : State) : (busRead idx s).cnt = s.cnt := rfl
@[simp] theorem busRead_blk (idx : BitVec 4) (s : State) : (busRead idx s).blk = s.blk := rfl
@[simp] theorem busRead_err (idx : BitVec 4) (s : State) : (busRead idx s).err = s.err := rfl
@[simp] theorem busRead_errCode (idx : BitVec 4) (s : State) : (busRead idx s).errCode = s.errCode := rfl
@[simp] theorem busRead_errInfo (idx : BitVec 4) (s : State) : (busRead idx s).errInfo = s.errInfo := rfl
@[simp] theorem busRead_tidx (idx : BitVec 4) (s : State) : (busRead idx s).tidx = s.tidx := rfl
@[simp] theorem busRead_taken (idx : BitVec 4) (s : State) : (busRead idx s).taken = s.taken := rfl
@[simp] theorem busRead_held (idx : BitVec 4) (s : State) : (busRead idx s).held = s.held := rfl
@[simp] theorem busRead_inputs (idx : BitVec 4) (s : State) : (busRead idx s).inputs = s.inputs := rfl
@[simp] theorem busRead_busData (idx : BitVec 4) (s : State) : (busRead idx s).busData = s.busData ++ [readReg idx s] := rfl

/-! ### raise: every field but the record's three stays (R144) -/

@[simp] theorem State.raise_mode (e : ErrKind) (w : Word) (s : State) : (s.raise e w).mode = s.mode := by
  unfold State.raise; split <;> rfl
@[simp] theorem State.raise_crc (e : ErrKind) (w : Word) (s : State) : (s.raise e w).crc = s.crc := by
  unfold State.raise; split <;> rfl
@[simp] theorem State.raise_sum (e : ErrKind) (w : Word) (s : State) : (s.raise e w).sum = s.sum := by
  unfold State.raise; split <;> rfl
@[simp] theorem State.raise_fill (e : ErrKind) (w : Word) (s : State) : (s.raise e w).fill = s.fill := by
  unfold State.raise; split <;> rfl
@[simp] theorem State.raise_inFrame (e : ErrKind) (w : Word) (s : State) : (s.raise e w).inFrame = s.inFrame := by
  unfold State.raise; split <;> rfl
@[simp] theorem State.raise_size (e : ErrKind) (w : Word) (s : State) : (s.raise e w).size = s.size := by
  unfold State.raise; split <;> rfl
@[simp] theorem State.raise_cnt (e : ErrKind) (w : Word) (s : State) : (s.raise e w).cnt = s.cnt := by
  unfold State.raise; split <;> rfl
@[simp] theorem State.raise_blk (e : ErrKind) (w : Word) (s : State) : (s.raise e w).blk = s.blk := by
  unfold State.raise; split <;> rfl
@[simp] theorem State.raise_tidx (e : ErrKind) (w : Word) (s : State) : (s.raise e w).tidx = s.tidx := by
  unfold State.raise; split <;> rfl
@[simp] theorem State.raise_taken (e : ErrKind) (w : Word) (s : State) : (s.raise e w).taken = s.taken := by
  unfold State.raise; split <;> rfl
@[simp] theorem State.raise_held (e : ErrKind) (w : Word) (s : State) : (s.raise e w).held = s.held := by
  unfold State.raise; split <;> rfl
@[simp] theorem State.raise_inputs (e : ErrKind) (w : Word) (s : State) : (s.raise e w).inputs = s.inputs := by
  unfold State.raise; split <;> rfl
@[simp] theorem State.raise_busData (e : ErrKind) (w : Word) (s : State) : (s.raise e w).busData = s.busData := by
  unfold State.raise; split <;> rfl

/-! ### takeByte: only the split of the output stream moves (R59) -/

@[simp] theorem State.takeByte_mode (s : State) : s.takeByte.mode = s.mode := by
  unfold State.takeByte; split <;> rfl
@[simp] theorem State.takeByte_crc (s : State) : s.takeByte.crc = s.crc := by
  unfold State.takeByte; split <;> rfl
@[simp] theorem State.takeByte_sum (s : State) : s.takeByte.sum = s.sum := by
  unfold State.takeByte; split <;> rfl
@[simp] theorem State.takeByte_fill (s : State) : s.takeByte.fill = s.fill := by
  unfold State.takeByte; split <;> rfl
@[simp] theorem State.takeByte_inFrame (s : State) : s.takeByte.inFrame = s.inFrame := by
  unfold State.takeByte; split <;> rfl
@[simp] theorem State.takeByte_size (s : State) : s.takeByte.size = s.size := by
  unfold State.takeByte; split <;> rfl
@[simp] theorem State.takeByte_cnt (s : State) : s.takeByte.cnt = s.cnt := by
  unfold State.takeByte; split <;> rfl
@[simp] theorem State.takeByte_blk (s : State) : s.takeByte.blk = s.blk := by
  unfold State.takeByte; split <;> rfl
@[simp] theorem State.takeByte_err (s : State) : s.takeByte.err = s.err := by
  unfold State.takeByte; split <;> rfl
@[simp] theorem State.takeByte_errCode (s : State) : s.takeByte.errCode = s.errCode := by
  unfold State.takeByte; split <;> rfl
@[simp] theorem State.takeByte_errInfo (s : State) : s.takeByte.errInfo = s.errInfo := by
  unfold State.takeByte; split <;> rfl
@[simp] theorem State.takeByte_tidx (s : State) : s.takeByte.tidx = s.tidx := by
  unfold State.takeByte; split <;> rfl
@[simp] theorem State.takeByte_inputs (s : State) : s.takeByte.inputs = s.inputs := by
  unfold State.takeByte; split <;> rfl
@[simp] theorem State.takeByte_busData (s : State) : s.takeByte.busData = s.busData := by
  unfold State.takeByte; split <;> rfl

/-! ### emitTrailer: only the output stream grows (R98) -/

@[simp] theorem State.emitTrailer_mode (p : Sum8TLen) (s : State) : (s.emitTrailer p).mode = s.mode := by
  unfold State.emitTrailer; dsimp only; split <;> rfl
@[simp] theorem State.emitTrailer_crc (p : Sum8TLen) (s : State) : (s.emitTrailer p).crc = s.crc := by
  unfold State.emitTrailer; dsimp only; split <;> rfl
@[simp] theorem State.emitTrailer_sum (p : Sum8TLen) (s : State) : (s.emitTrailer p).sum = s.sum := by
  unfold State.emitTrailer; dsimp only; split <;> rfl
@[simp] theorem State.emitTrailer_fill (p : Sum8TLen) (s : State) : (s.emitTrailer p).fill = s.fill := by
  unfold State.emitTrailer; dsimp only; split <;> rfl
@[simp] theorem State.emitTrailer_inFrame (p : Sum8TLen) (s : State) : (s.emitTrailer p).inFrame = s.inFrame := by
  unfold State.emitTrailer; dsimp only; split <;> rfl
@[simp] theorem State.emitTrailer_size (p : Sum8TLen) (s : State) : (s.emitTrailer p).size = s.size := by
  unfold State.emitTrailer; dsimp only; split <;> rfl
@[simp] theorem State.emitTrailer_cnt (p : Sum8TLen) (s : State) : (s.emitTrailer p).cnt = s.cnt := by
  unfold State.emitTrailer; dsimp only; split <;> rfl
@[simp] theorem State.emitTrailer_blk (p : Sum8TLen) (s : State) : (s.emitTrailer p).blk = s.blk := by
  unfold State.emitTrailer; dsimp only; split <;> rfl
@[simp] theorem State.emitTrailer_err (p : Sum8TLen) (s : State) : (s.emitTrailer p).err = s.err := by
  unfold State.emitTrailer; dsimp only; split <;> rfl
@[simp] theorem State.emitTrailer_errCode (p : Sum8TLen) (s : State) : (s.emitTrailer p).errCode = s.errCode := by
  unfold State.emitTrailer; dsimp only; split <;> rfl
@[simp] theorem State.emitTrailer_errInfo (p : Sum8TLen) (s : State) : (s.emitTrailer p).errInfo = s.errInfo := by
  unfold State.emitTrailer; dsimp only; split <;> rfl
@[simp] theorem State.emitTrailer_tidx (p : Sum8TLen) (s : State) : (s.emitTrailer p).tidx = s.tidx := by
  unfold State.emitTrailer; dsimp only; split <;> rfl
@[simp] theorem State.emitTrailer_taken (p : Sum8TLen) (s : State) : (s.emitTrailer p).taken = s.taken := by
  unfold State.emitTrailer; dsimp only; split <;> rfl
@[simp] theorem State.emitTrailer_inputs (p : Sum8TLen) (s : State) : (s.emitTrailer p).inputs = s.inputs := by
  unfold State.emitTrailer; dsimp only; split <;> rfl
@[simp] theorem State.emitTrailer_busData (p : Sum8TLen) (s : State) : (s.emitTrailer p).busData = s.busData := by
  unfold State.emitTrailer; dsimp only; split <;> rfl

end Sys2Proof.Machine
end

