-- ==== Sys2Proof/Laws/Ops.lean ====
section
/-! SUPPORT. One lemma for each shared operation that says everything it can do. -/

namespace Sys2Proof.Machine

/-! ## The output stream -/

@[simp] theorem State.emit_out (b : Byte) (s : State) : (s.emit b).out = s.out ++ [b] := by
  simp [State.out]

@[simp] theorem State.takeByte_out (s : State) : s.takeByte.out = s.out := by
  unfold State.takeByte State.out
  split <;> simp_all

theorem State.takeByte_nil {s : State} (h : s.held = []) : s.takeByte = s := by
  unfold State.takeByte; rw [h]

theorem State.takeByte_cons {s : State} {b : Byte} {rest : List Byte} (h : s.held = b :: rest) :
    s.takeByte = { s with taken := s.taken ++ [b], held := rest } := by
  unfold State.takeByte; rw [h]

theorem State.busy_eq_false (s : State) : s.busy = false ↔ s.held = [] := by
  simp [State.busy]

/-- The trailer in Crc16 mode (R98): two bytes, the high one first. -/
theorem State.emitTrailer_crc16 {s : State} (p : Sum8TLen) (h : s.mode = .crc16) :
    s.emitTrailer p = (s.emit (s.crc.extractLsb' 8 8)).emit (s.crc.extractLsb' 0 8) := by
  simp [State.emitTrailer, chk, tLen, h]

/-- The one trailer byte in Sum8 mode with `P_SUM8_TLEN = 1` (R98). -/
theorem State.emitTrailer_sum8 {s : State} (h : s.mode = .sum8) : s.emitTrailer .one = s.emit s.sum := by
  have e : (s.sum.setWidth 16).extractLsb' 0 8 = s.sum := by
    apply BitVec.eq_of_toNat_eq
    have := s.sum.isLt
    simp [BitVec.extractLsb'_toNat]
    omega
  simp [State.emitTrailer, chk, tLen, h, Sum8TLen.toNat, e]

/-! ## Padding -/

/-- END's padding loop as one update (R120). -/
theorem State.padBytes_eq (k : Nat) (s : State) :
    s.padBytes k = { s with
      crc := crcFrom s.crc (List.replicate k s.fill),
      sum := sumFrom s.sum (List.replicate k s.fill),
      held := s.held ++ List.replicate k s.fill,
      cnt := s.cnt + BitVec.ofNat 11 k } := by
  induction k generalizing s with
  | zero => simp [State.padBytes, crcFrom, sumFrom]
  | succ k ih =>
    have hc : 1#11 + BitVec.ofNat 11 k = BitVec.ofNat 11 (k + 1) := by
      rw [Nat.add_comm k 1, BitVec.ofNat_add]
    simp [State.padBytes, ih, State.payloadByte, State.acc, State.emit, crcFrom, sumFrom, List.replicate_succ, BitVec.add_assoc, hc]

/-! ## Errors -/

/-- The first error is recorded (R143). -/
theorem State.raise_first {s : State} (e : ErrKind) (w : Word) (h : s.err = false) :
    s.raise e w = { s with err := true, errCode := e.code, errInfo := w } := by
  simp [State.raise, h]

/-- A later error leaves no trace (R143). -/
theorem State.raise_kept {s : State} (e : ErrKind) (w : Word) (h : s.err = true) : s.raise e w = s := by
  simp [State.raise, h]

@[simp] theorem State.raise_err (e : ErrKind) (w : Word) (s : State) : (s.raise e w).err = true := by
  cases h : s.err <;> simp [State.raise, h]

@[simp] theorem State.raise_out (e : ErrKind) (w : Word) (s : State) : (s.raise e w).out = s.out := by
  simp [State.out]

/-- Where a command is legal it acts (R142). -/
theorem perform_legal {i : Instr} {s : State} (act : State → State) (h : legal i s.inFrame = true) :
    perform i act s = .next (act s) := by
  simp [perform, h]

/-- Where a command is not legal it raises E_STATE (R142). -/
theorem perform_illegal {i : Instr} {s : State} (act : State → State) (h : legal i s.inFrame = false) :
    perform i act s = .next (s.raise .eState (encode i)) := by
  simp [perform, h]

/-! ## The commands -/

/-- The action of a command where it is legal: the "Pseudocode" of its rule. -/
def action : Instr → State → State
  | .nop => id
  | .clr => State.clearAcc
  | .upd b => State.acc b
  | .trl => State.emitTrailer Config.pSum8TLen
  | .setmode m => fun s => { s with mode := m }
  | .setfill f => fun s => { s with fill := f }
  | .beginFrame z n => State.openFrame z n
  | .beginNext z => fun s => s.openFrame z (nextBlock s.blk)
  | .beginAgain z => fun s => s.openFrame z s.blk
  | .data b => fun s => if payloadFull s then s.raise .eOverflow (encode (.data b)) else s.payloadByte b
  | .endFrame => State.padAndClose Config.pSum8TLen
  | .abort => State.closeFrame
  | .clrerr => State.clearRecord

/-- Every command is its action behind the frame-state check. -/
theorem exec_eq_perform (i : Instr) (s : State) : exec i s = perform i (action i) s := by
  cases i <;> rfl

/-- Everything a command can do: act where it is legal, or raise E_STATE where it is not. -/
theorem exec_cases {i : Instr} {s t : State} (h : exec i s = .next t) :
    (legal i s.inFrame = true ∧ t = action i s) ∨
    (legal i s.inFrame = false ∧ t = s.raise .eState (encode i)) := by
  rw [exec_eq_perform, perform] at h
  split at h
  · next hl => exact .inl ⟨hl, (Host.Outcome.next.inj h).symm⟩
  · next hl => exact .inr ⟨by simpa using hl, (Host.Outcome.next.inj h).symm⟩

/-- Everything a word written to CMD can do (R142). -/
theorem execute_cases {w : Word} {s t : State} (h : execute w s = .next t) :
    (decode w = .illegal ∧ t = s.raise .eIllegal w) ∨
    (∃ op, decode w = .reserved op ∧ t = s.raise .eRsvd w) ∨
    (∃ i, decode w = .cmd i ∧ exec i s = .next t) := by
  unfold execute at h
  split at h
  · next hd => exact .inl ⟨hd, (Host.Outcome.next.inj h).symm⟩
  · next op hd => exact .inr (.inl ⟨op, hd, (Host.Outcome.next.inj h).symm⟩)
  · next i hd => exact .inr (.inr ⟨i, hd, h⟩)

/-! ## The step -/

theorem step_nil {s : State} (h : s.inputs = []) : step s = .next s := by
  simp [step, nextInput, h]

theorem step_cons {s : State} {e : Input} {rest : List Input} (h : s.inputs = e :: rest) :
    step s = onInput e { s with inputs := rest } := by
  simp [step, nextInput, h]

/-- Everything a step can do when it answers a next state. -/
theorem step_cases {s t : State} (h : step s = .next t) :
    (s.inputs = [] ∧ t = s) ∨
    (∃ idx rest, s.inputs = .read idx :: rest ∧ s.held = [] ∧ t = busRead idx { s with inputs := rest }) ∨
    (∃ idx v rest, s.inputs = .write idx v :: rest ∧ s.held = [] ∧ busWrite idx v { s with inputs := rest } = .next t) ∨
    (∃ rest, s.inputs = .assertReset :: rest ∧ t = State.hardReset { s with inputs := rest }) ∨
    (∃ rest, s.inputs = .take :: rest ∧ t = State.takeByte { s with inputs := rest }) := by
  cases hi : s.inputs with
  | nil => rw [step_nil hi] at h; exact .inl ⟨rfl, (Host.Outcome.next.inj h).symm⟩
  | cons e rest =>
    rw [step_cons hi] at h
    cases e with
    | read idx =>
      simp only [onInput] at h
      split at h
      · cases h
      · next hb => exact .inr (.inl ⟨idx, rest, rfl, by simpa [State.busy] using hb, (Host.Outcome.next.inj h).symm⟩)
    | write idx v =>
      simp only [onInput] at h
      split at h
      · cases h
      · next hb => exact .inr (.inr (.inl ⟨idx, v, rest, rfl, by simpa [State.busy] using hb, h⟩))
    | assertReset => exact .inr (.inr (.inr (.inl ⟨rest, rfl, (Host.Outcome.next.inj h).symm⟩)))
    | take => exact .inr (.inr (.inr (.inr ⟨rest, rfl, (Host.Outcome.next.inj h).symm⟩)))

/-- A write to CMD with no write in progress executes its word (R52). -/
theorem step_cmdWrite {s : State} {w : Word} {rest : List Input} (h : s.inputs = .write 0 w :: rest) (hh : s.held = []) :
    step s = execute w { s with inputs := rest } := by
  rw [step_cons h]
  unfold onInput State.busy
  simp only [hh]
  rfl

/-- A run's first step. -/
theorem run_succ {s t : State} (k : Nat) (h : step s = .next t) :
    Host.Core.run core (k + 1) s = Host.Core.run core k t := by
  simp only [Host.Core.run, core]
  rw [h]

/-- A run of no step. -/
theorem run_zero (s : State) : Host.Core.run core 0 s = .next s := rfl

/-- Everything a host write can do (R52, R54). -/
theorem busWrite_cases {idx : BitVec 4} {v : Word} {s t : State} (h : busWrite idx v s = .next t) :
    (idx = 0 ∧ execute v s = .next t) ∨
    (idx = 9 ∧ t = { s with tidx := v.setWidth 8 }) ∨
    (idx ≠ 0 ∧ idx ≠ 9 ∧ t = s) := by
  unfold busWrite at h
  split at h
  · next hx => exact .inl ⟨BitVec.eq_of_toNat_eq hx, h⟩
  · next hx => exact .inr (.inl ⟨BitVec.eq_of_toNat_eq hx, (Host.Outcome.next.inj h).symm⟩)
  · next h0 h9 =>
    exact .inr (.inr ⟨fun e => h0 (by simp [e]), fun e => h9 (by simp [e]), (Host.Outcome.next.inj h).symm⟩)

end Sys2Proof.Machine
end

