-- ==== Sys2Proof/Laws/PerInstr.lean ====
section
/-! SUPPORT. Each command's encoding fits its row of the opcode table (spec/30_encoding.md R72): `encode i & mask = match`. -/

namespace Sys2Proof.Laws

/-- The word a command is encoded as has the fixed bits of the command's row. -/
def RowFit.Statement (i : Instr) : Prop := encode i &&& i.opcode.mask = i.opcode.matchBits

theorem RowFit.nop : RowFit.Statement .nop := by unfold RowFit.Statement; decide
theorem RowFit.clr : RowFit.Statement .clr := by unfold RowFit.Statement; decide
theorem RowFit.upd (b : Byte) : RowFit.Statement (.upd b) := by unfold RowFit.Statement; revert b; decide
theorem RowFit.trl : RowFit.Statement .trl := by unfold RowFit.Statement; decide
theorem RowFit.setmode (m : Mode) : RowFit.Statement (.setmode m) := by unfold RowFit.Statement; cases m <;> decide
theorem RowFit.setfill (f : Byte) : RowFit.Statement (.setfill f) := by unfold RowFit.Statement; revert f; decide
theorem RowFit.beginFrame (s : PSize) (n : Byte) : RowFit.Statement (.beginFrame s n) := by
  unfold RowFit.Statement; revert n; cases s <;> decide
theorem RowFit.beginNext (s : PSize) : RowFit.Statement (.beginNext s) := by unfold RowFit.Statement; cases s <;> decide
theorem RowFit.beginAgain (s : PSize) : RowFit.Statement (.beginAgain s) := by unfold RowFit.Statement; cases s <;> decide
theorem RowFit.data (b : Byte) : RowFit.Statement (.data b) := by unfold RowFit.Statement; revert b; decide
theorem RowFit.endFrame : RowFit.Statement .endFrame := by unfold RowFit.Statement; decide
theorem RowFit.abort : RowFit.Statement .abort := by unfold RowFit.Statement; decide
theorem RowFit.clrerr : RowFit.Statement .clrerr := by unfold RowFit.Statement; decide

end Sys2Proof.Laws
end

