-- ==== Sys2Proof/Laws/Run.lean ====
section
/-! SUPPORT. Runs of commands, the bytes of an open frame, and the independence of a command from what waits at the pins. -/

namespace Sys2Proof.Machine

theorem crcFrom_append (c : Half) (a b : List Byte) : crcFrom c (a ++ b) = crcFrom (crcFrom c a) b := by
  simp [crcFrom]

theorem sumFrom_append (c : Byte) (a b : List Byte) : sumFrom c (a ++ b) = sumFrom (sumFrom c a) b := by
  simp [sumFrom]

/-- A run of commands goes on from where its first part ends. -/
theorem runCommands_append (a b : List Instr) {s t : State} (h : runCommands a s = .next t) :
    runCommands (a ++ b) s = runCommands b t := by
  induction a generalizing s with
  | nil => cases h; rfl
  | cons i rest ih =>
    simp only [List.cons_append, runCommands] at h ⊢
    split at h
    · exact ih h
    · cases h
    · cases h

/-- A run of commands has no other end than a next state. -/
theorem runCommands_next (l : List Instr) (s : State) : ∃ t, runCommands l s = .next t := by
  induction l generalizing s with
  | nil => exact ⟨s, rfl⟩
  | cons i rest ih =>
    simp only [runCommands, exec_eq_perform, perform]
    split
    · next h => exact ih _
    · next h => split at h <;> cases h
    · next h => split at h <;> cases h

/-- A run of one step more is the run and then a step. -/
theorem run_succ_last {s t : State} (k : Nat) (h : Host.Core.run core k s = .next t) :
    Host.Core.run core (k + 1) s = step t := by
  induction k generalizing s with
  | zero =>
    cases h
    cases hs : step t with
    | next u => exact run_succ 0 hs
    | fault f => cases f
    | refused r => simp only [Host.Core.run, core]; rw [hs]
  | succ k ih =>
    cases hs : step s with
    | next u => rw [run_succ _ hs] at h ⊢; exact ih h
    | fault f => cases f
    | refused r =>
      simp only [Host.Core.run, core] at h
      rw [hs] at h
      cases h

/-! ## The bytes of an open frame (R42) -/

/-- What an open frame is read from: two states that agree there have it open over the same bytes. -/
theorem State.OpenedAt.of_eq {pre : List Byte} {s t : State} (h : s.OpenedAt pre) (ho : t.out = s.out) (hz : t.size = s.size)
    (hb : t.blk = s.blk) (hn : t.cnt = s.cnt) (hc : t.crc = s.crc) (hs : t.sum = s.sum) : t.OpenedAt pre := by
  unfold State.OpenedAt at *
  rwa [ho, hz, hb, hn, hc, hs]

/-- A BEGIN-family command opens its frame over all that was emitted before (R115). -/
theorem State.openFrame_openedAt (z : PSize) (n : Byte) (s : State) : (s.openFrame z n).OpenedAt s.out :=
  ⟨[], by simp [State.out, blockComplement], rfl, rfl, rfl⟩

/-- A payload byte leaves the frame open over the same bytes (R119), where CNT does not wrap. -/
theorem State.payloadByte_openedAt {pre : List Byte} {s : State} (b : Byte) (hc : s.cnt.toNat < 2047) (h : s.OpenedAt pre) :
    (s.payloadByte b).OpenedAt pre := by
  obtain ⟨payload, ho, hn, hcrc, hsum⟩ := h
  refine ⟨payload ++ [b], ?_, ?_, ?_, ?_⟩
  · rw [show (s.payloadByte b).out = s.out ++ [b] by simp [State.out], ho]; simp
  · simp [BitVec.toNat_add, hn]; omega
  · simp [hcrc, crcFrom]
  · simp [hsum, sumFrom]

/-- What END emits closes the open frame with its pad bytes and trailer (R113, R120). -/
theorem State.padAndClose_out {pre : List Byte} {s : State} (h : s.OpenedAt pre) :
    ∃ payload : List Byte, payload.length = s.cnt.toNat ∧
      (s.padAndClose .one).out = pre ++ frameBytes s.mode s.fill s.size s.blk payload := by
  obtain ⟨payload, ho, hn, hcrc, hsum⟩ := h
  refine ⟨payload, hn, ?_⟩
  have e : (s.padAndClose .one).out =
      s.out ++ (List.replicate (padCount s) s.fill ++ trailerOf s.mode (padded s.size s.fill payload)) := by
    simp only [State.padAndClose, State.padBytes_eq, padded, trailerOf, crcFrom_append, sumFrom_append, ← hcrc, ← hsum, padCount, hn]
    cases hm : s.mode
    · rw [State.emitTrailer_sum8 rfl]; simp [State.out]
    · rw [State.emitTrailer_crc16 _ rfl]; simp [State.out]
  rw [e, ho]
  simp [frameBytes, padded, padCount, hn]

theorem State.padAndClose_setInputs (p : Sum8TLen) (s : State) (x : List Input) :
    State.padAndClose p { s with inputs := x } = { s.padAndClose p with inputs := x } := by
  simp only [State.padAndClose, State.padBytes_eq, padCount, State.emitTrailer, chk]
  cases s.mode <;> cases p <;> simp [tLen, Sum8TLen.toNat, State.emit, State.closeFrame]

theorem State.raise_setInputs (e : ErrKind) (w : Word) (s : State) (x : List Input) :
    State.raise e w { s with inputs := x } = { s.raise e w with inputs := x } := by
  unfold State.raise; dsimp only; split <;> rfl

theorem action_setInputs (i : Instr) (s : State) (x : List Input) :
    action i { s with inputs := x } = { action i s with inputs := x } := by
  cases i with
  | trl =>
    cases hm : s.mode <;>
      simp [action, State.emitTrailer, chk, tLen, Config.pSum8TLen, Sum8TLen.toNat, State.emit, hm]
  | data b =>
    simp only [action, payloadFull]
    by_cases hc : s.cnt.toNat = payloadLen s.size
    · simp [hc, State.raise_setInputs]
    · simp [hc, State.payloadByte, State.acc, State.emit]
  | endFrame => exact State.padAndClose_setInputs _ _ _
  | _ => rfl

/-- What waits at the pins has no part in a word's execution (R55, R57). -/
theorem execute_setInputs {w : Word} {s t : State} (x : List Input) (h : execute w s = .next t) :
    execute w { s with inputs := x } = .next { t with inputs := x } := by
  unfold execute at *
  split at h
  · cases h; rw [State.raise_setInputs]
  · cases h; rw [State.raise_setInputs]
  · rw [exec_eq_perform, perform] at *
    dsimp only
    split at h
    · next hl => cases h; rw [if_pos hl, action_setInputs]
    · next hl => cases h; rw [if_neg hl, State.raise_setInputs]

end Sys2Proof.Machine
end

