-- ==== Sys2Proof/Tests/Slice0.lean ====
section
/-! SUPPORT. The model's own tests. Every expected value is written out from spec/: words from R72 and R77, results from spec/95_test_vectors.md (its row named in each comment). At the end, a witness for the hypotheses of each statement. -/

namespace Sys2Proof

open Machine

/-! ## WellFormed: each check refuses an ill-formed line (R77, R53) -/

theorem test_wf_byte_above_0xFF_refused : (SourceLine.upd [0x100]).wf = false ∧ (SourceLine.upd [0xFF]).wf = true := by decide
theorem test_wf_data_byte_refused : (SourceLine.data [1, 256, 2]).wf = false := by decide
theorem test_wf_fill_refused : (SourceLine.setfill 256).wf = false := by decide
theorem test_wf_size_refused : (SourceLine.beginFrame 129 0).wf = false ∧ (SourceLine.beginFrame 1024 0).wf = true := by decide
theorem test_wf_block_refused : (SourceLine.beginFrame 128 256).wf = false := by decide
theorem test_wf_begin_sizes_refused : (SourceLine.beginNext 512).wf = false ∧ (SourceLine.beginAgain 0).wf = false := by decide
theorem test_wf_mode_refused : (SourceLine.setmode 2).wf = false := by decide
theorem test_wf_frame_refused : (SourceLine.frame 127 0 []).wf = false ∧ (SourceLine.frame 128 0 [300]).wf = false := by decide
theorem test_wf_word_refused : (SourceLine.word (2 ^ 32)).wf = false := by decide
theorem test_wf_index_refused : (SourceLine.wr 16 0).wf = false ∧ (SourceLine.rd 16).wf = false := by decide
theorem test_wf_checksum_and_name_refused : (SourceLine.cksum [256]).wf = false ∧ (SourceLine.nameblk [256]).wf = false := by decide

/-! ## Decode: one word of every row, bit by bit from R70: RSVD, OP, F, IMM -/

theorem test_decode_nop : decode 0b0000000000000000_0000_0000_00000000 = .cmd .nop := by decide
theorem test_decode_clr : decode 0b0000000000000000_0001_0000_00000000 = .cmd .clr := by decide
theorem test_decode_upd : decode 0b0000000000000000_0010_0000_00110001 = .cmd (.upd 0x31) := by decide
theorem test_decode_trl : decode 0b0000000000000000_0011_0000_00000000 = .cmd .trl := by decide
theorem test_decode_setmode : decode 0b0000000000000000_0100_0000_00000001 = .cmd (.setmode .crc16) := by decide
theorem test_decode_setfill : decode 0b0000000000000000_0101_0000_00011010 = .cmd (.setfill 0x1A) := by decide
theorem test_decode_begin : decode 0b0000000000000000_0110_0001_10000000 = .cmd (.beginFrame .s1024 0x80) := by decide
theorem test_decode_beginn : decode 0b0000000000000000_0111_0001_00000000 = .cmd (.beginNext .s1024) := by decide
theorem test_decode_beginr : decode 0b0000000000000000_1000_0000_00000000 = .cmd (.beginAgain .s128) := by decide
theorem test_decode_data : decode 0b0000000000000000_1001_0000_01000001 = .cmd (.data 0x41) := by decide
theorem test_decode_end : decode 0b0000000000000000_1010_0000_00000000 = .cmd .endFrame := by decide
theorem test_decode_abort : decode 0b0000000000000000_1011_0000_00000000 = .cmd .abort := by decide
theorem test_decode_clrerr : decode 0b0000000000000000_1100_0000_00000000 = .cmd .clrerr := by decide
/-- X2, X3, X7 to X11, X13, X14: reserved words. -/
theorem test_decode_reserved :
    decode 0x00000001 = .reserved .nop ∧ decode 0x00010000 = .reserved .nop ∧ decode 0x00004002 = .reserved .setmode ∧
    decode 0x00006200 = .reserved .beginFrame ∧ decode 0x00007001 = .reserved .beginNext ∧
    decode 0x00008080 = .reserved .beginAgain ∧ decode 0x00019041 = .reserved .data ∧
    decode 0x0000B001 = .reserved .abort ∧ decode 0x0000C001 = .reserved .clrerr := by decide
/-- X4 to X6: illegal words. -/
theorem test_decode_illegal : decode 0x0000D000 = .illegal ∧ decode 0x0000F0FF = .illegal ∧ decode 0x0000D123 = .illegal := by decide
theorem test_decodeTableWord : decodeTableWord 32 0x9041 = some (.data 0x41) ∧ decodeTableWord 32 0xD000 = none := by decide

/-! ## One command on a small state -/

/-- The next state of an outcome. -/
def nextOf : Host.Outcome State Fault Refusal → Option State
  | .next t => some t
  | .fault _ => none
  | .refused _ => none

/-- The next state of a command. -/
def after (i : Instr) (s : State) : Option State := nextOf (exec i s)

/-- Reset, then SETMODE CRC16. -/
def crcState : State := { State.reset with mode := .crc16 }

/-- A 128-byte frame open, its header bytes taken. -/
def openState : State := { State.reset with inFrame := true, blk := 0x00 }

/-- The same with a full payload of zeros: F8's start. -/
def fullState : State := { openState with cnt := 128 }

/-- X1. -/
theorem test_nop : after .nop openState = some openState := by decide
/-- T1. -/
theorem test_clr : after .clr { State.reset with crc := 0x31C3, sum := 0xDD } = some State.reset := by decide
/-- T10. -/
theorem test_clr_in_frame :
    (after .clr openState).map (fun t => (readReg 1 t, t.errInfo, t.crc)) = some (0x0000013A, 0x00001000, 0x0000) := by decide
/-- T2. -/
theorem test_upd : (after (.upd 0x31) State.reset).map (fun t => (t.crc, t.sum, t.cnt)) = some (0x2672, 0x31, 0) := by decide
/-- Section 2.2: 0xFFFF folded with 0xFF, and the carry out of 0xFF + 0xFF. -/
theorem test_upd_wraps :
    (after (.upd 0xFF) { State.reset with crc := 0xFFFF, sum := 0xFF }).map (fun t => (t.crc, t.sum)) = some (0xFF00, 0xFE) := by decide
/-- T5, T6: the same bytes, either accumulator. -/
theorem test_trl_sum8 : (after .trl { State.reset with crc := 0x6131, sum := 0x06 }).map State.out = some [0x06] := by decide
theorem test_trl_crc16 : (after .trl { crcState with crc := 0x6131, sum := 0x06 }).map State.out = some [0x61, 0x31] := by decide
/-- T7 and F15: the reference variant's two bytes. -/
theorem test_trailer_variant : (State.emitTrailer .two { State.reset with sum := 0xB8 }).out = [0x00, 0xB8] ∧
    statusView .two State.reset = 0x00000200 := by decide
/-- T8. -/
theorem test_setmode : (after (.setmode .crc16) State.reset).map (fun t => (t.mode, readReg 1 t)) = some (.crc16, 0x00000201) := by decide
/-- T9. -/
theorem test_setmode_reserved :
    (nextOf (execute 0x00004043 State.reset)).map (fun t => (t.errCode, t.errInfo, readReg 1 t, t.mode)) =
      some (2, 0x00004043, 0x00000128, .sum8) := by decide
/-- F1. -/
theorem test_setfill : (after (.setfill 0x00) State.reset).map State.fill = some 0x00 := by decide
/-- F22. -/
theorem test_setfill_in_frame : (after (.setfill 0x00) openState).map (fun t => (t.fill, t.errCode)) = some (0x1A, 3) := by decide
/-- F2. -/
theorem test_begin :
    (after (.beginFrame .s128 1) State.reset).map (fun t => (t.out, readReg 6 t, readReg 1 t)) =
      some ([0x01, 0x01, 0xFE], 0x0000FE01, 0x00000102) := by decide
/-- F3. -/
theorem test_begin_1024 :
    (after (.beginFrame .s1024 0xFF) State.reset).map (fun t => (t.out, t.size, readReg 1 t)) =
      some ([0x02, 0xFF, 0x00], .s1024, 0x00000106) := by decide
/-- F4. -/
theorem test_beginn_wraps : (after (.beginNext .s1024) State.reset).map (fun t => (t.out, t.blk)) = some ([0x02, 0x00, 0xFF], 0x00) := by decide
/-- F5. -/
theorem test_beginr : (after (.beginAgain .s1024) { State.reset with blk := 0x03 }).map (fun t => (t.out, t.blk)) =
    some ([0x02, 0x03, 0xFC], 0x03) := by decide
/-- F7. -/
theorem test_data : (after (.data 0x41) openState).map (fun t => (t.cnt, t.crc, t.sum, t.out)) = some (1, 0x58E5, 0x41, [0x41]) := by decide
/-- F8. -/
theorem test_data_overflow :
    (after (.data 0x01) fullState).map (fun t => (t.errCode, t.errInfo, readReg 1 t, t.cnt, t.out)) =
      some (4, 0x00009001, 0x0000014A, 128, []) := by decide
/-- F9 (the record of F8 aside): a full payload, the trailer only. -/
theorem test_end_full : (after .endFrame fullState).map (fun t => (t.inFrame, t.out, t.cnt)) = some (false, [0x00], 128) := by decide
set_option maxRecDepth 20000 in
/-- P2's payload of 1, 2, 3 in Crc16 mode (F14), its last three pad bytes and trailer: CRC = 0xEDF1, SUM = 0xB8, 125 pad bytes. -/
theorem test_end_pads :
    (after .endFrame { crcState with inFrame := true, cnt := 3, crc := 0x6131, sum := 0x06 }).map
      (fun t => (t.crc, t.sum, t.cnt, t.out.length, t.out.drop 122)) = some (0xEDF1, 0xB8, 128, 127, [0x1A, 0x1A, 0x1A, 0xED, 0xF1]) := by decide
/-- F18. -/
theorem test_abort : (after .abort { openState with cnt := 10, crc := 0x1234 }).map (fun t => (t.inFrame, t.cnt, t.crc, t.out)) =
    some (false, 10, 0x1234, []) := by decide
/-- X16. -/
theorem test_clrerr :
    (after .clrerr { State.reset with err := true, errCode := 3, errInfo := 0x00009041 }).map
      (fun t => (readReg 1 t, t.errInfo, errO t)) = some (0x00000100, 0, false) := by decide
/-- X15: the first error is kept. -/
theorem test_first_error_kept :
    (nextOf (execute 0x0000D000 { State.reset with err := true, errCode := 3, errInfo := 0x00009041 })).map
      (fun t => (readReg 1 t, t.errInfo)) = some (0x00000138, 0x00009041) := by decide
/-- F20. -/
theorem test_data_idle : (after (.data 0x41) State.reset).map (fun t => (readReg 1 t, t.errInfo)) = some (0x00000138, 0x00009041) := by decide

/-- V1: the check value of "123456789" and its sum (B10). -/
theorem test_check_string :
    crcFrom 0 [0x31, 0x32, 0x33, 0x34, 0x35, 0x36, 0x37, 0x38, 0x39] = 0x31C3 ∧
    sumFrom 0 [0x31, 0x32, 0x33, 0x34, 0x35, 0x36, 0x37, 0x38, 0x39] = 0xDD := by decide
/-- Section 2.1, spot entries of the ROM. -/
theorem test_rom_entries : crcTable 0x01 = 0x1021 ∧ crcTable 0x1A = 0xB37B ∧ crcTable 0x80 = 0x9188 ∧ crcTable 0xFF = 0x1EF0 := by decide

/-! ## The bus and the port -/

/-- The state with these inputs waiting. -/
def withInputs (xs : List Input) (s : State) : State := { s with inputs := xs }

/-- B1 to B5: reads right after reset. -/
theorem test_reads_at_reset :
    readReg 1 State.reset = 0x00000100 ∧ readReg 6 State.reset = 0x000000FF ∧ readReg 7 State.reset = 0x0000001A ∧
    readReg 0 State.reset = 0 ∧ readReg 12 State.reset = 0 := by decide
/-- B6: a write to STATUS is ignored. -/
theorem test_status_write_ignored : nextOf (busWrite 1 0xFFFFFFFF State.reset) = some State.reset := by decide
/-- B7. -/
theorem test_tidx : (nextOf (busWrite 9 0x000001FF State.reset)).map (fun t => (readReg 9 t, readReg 10 t)) =
    some (0x000000FF, 0x00001EF0) := by decide
/-- R59: the write of DATA 0x41 is in progress until its byte is taken. -/
theorem test_step_data_then_take :
    (nextOf (Host.Core.run core 1 (withInputs [.write 0 0x00009041, .take] openState))).map State.held = some [0x41] ∧
    (nextOf (Host.Core.run core 2 (withInputs [.write 0 0x00009041, .take] openState))).map (fun t => (t.taken, t.held)) =
      some ([0x41], []) := by decide
/-- R162: a BEGIN cut by reset after two of its three bytes. -/
theorem test_reset_cuts_begin :
    (nextOf (Host.Core.run core 4 (withInputs [.write 0 0x00006001, .take, .take, .assertReset] State.reset))).map
      (fun t => (t.out, t.inFrame, t.blk)) = some ([0x01, 0x01], false, 0xFF) := by decide
/-- The step after withFetchWord runs the word (SETFILL 0x00). -/
theorem test_withFetchWord : (nextOf (step (State.reset.withFetchWord 32 0x5000))).map State.fill = some 0x00 := by decide
/-- R79: the expansion of NAMEBLK "a". -/
theorem test_assemble_nameblk :
    assembleLine (.nameblk [0x61]) = some [.write 0 0x5000, .write 0 0x6000, .write 0 0x9061, .write 0 0xA000, .write 0 0x501A] := by decide

/-- R78, R77: a register write and read by index, and an illegal word written as it is. -/
theorem test_assemble_bus_lines :
    assembleLine (.wr 9 0x1FF) = some [.write 9 0x000001FF] ∧ assembleLine (.rd 10) = some [.read 10] ∧
    assembleLine (.word 0x0000D123) = some [.write 0 0x0000D123] := by decide

/-! ## Witnesses: a state and operands that meet the hypotheses of each statement, clause by clause -/

theorem witness_DecodedWordIsItsOnlySpelling : decode 0x000061FF = .cmd (.beginFrame .s1024 0xFF) := by decide
theorem witness_IllegalAndReservedWordsRaise :
    0xD ≤ ((0x0000D000 : Word).extractLsb' 12 4).toNat ∧ 0xD ≤ ((0x0000FFFF : Word).extractLsb' 12 4).toNat ∧
    (((0x0000C001 : Word).extractLsb' 12 4).toNat < 0xD ∧ reservedBitSet 0x0000C001 = true) ∧
    (((0x00000001 : Word).extractLsb' 12 4).toNat < 0xD ∧ reservedBitSet 0x00000001 = true) ∧
    (((0x0000C000 : Word).extractLsb' 12 4).toNat < 0xD ∧ reservedBitSet 0x0000C000 = false) := by decide
theorem witness_NopChangesNothing : (0x00000001 : Word).extractLsb' 12 4 = 0x0 ∧ (0x00000001 : Word) ≠ 0x00000000 := by decide
theorem witness_ClrClearsAccumulators :
    State.reset.inFrame = false ∧ openState.inFrame = true ∧
    (0x80001000 : Word).extractLsb' 12 4 = 0x1 ∧ (0x80001000 : Word) ≠ 0x00001000 := by decide
theorem witness_UpdFoldsOneByte :
    State.reset.inFrame = false ∧ openState.inFrame = true ∧
    (0x00002800 : Word).extractLsb' 12 4 = 0x2 ∧ (0x00002800 : Word).extractLsb' 8 4 ≠ 0 ∧
    (0x00012000 : Word).extractLsb' 12 4 = 0x2 ∧ (0x00012000 : Word).extractLsb' 16 16 ≠ 0 := by decide
theorem witness_TrlEmitsTrailer :
    (crcState.inFrame = false ∧ crcState.mode = .crc16) ∧ (State.reset.inFrame = false ∧ State.reset.mode = .sum8) ∧
    openState.inFrame = true ∧ (0x00003001 : Word).extractLsb' 12 4 = 0x3 ∧ (0x00003001 : Word) ≠ 0x00003000 := by decide
theorem witness_SetmodeSelectsChecksum :
    State.reset.inFrame = false ∧ openState.inFrame = true ∧
    (0x00004002 : Word).extractLsb' 12 4 = 0x4 ∧ (0x00004002 : Word).extractLsb' 1 11 ≠ 0 ∧
    (0x00014001 : Word).extractLsb' 12 4 = 0x4 ∧ (0x00014001 : Word).extractLsb' 16 16 ≠ 0 := by decide
theorem witness_SetfillSetsPadByte :
    State.reset.inFrame = false ∧ openState.inFrame = true ∧
    (0x00005100 : Word).extractLsb' 12 4 = 0x5 ∧ (0x00005100 : Word).extractLsb' 8 4 ≠ 0 ∧
    (0x80005000 : Word).extractLsb' 12 4 = 0x5 ∧ (0x80005000 : Word).extractLsb' 16 16 ≠ 0 := by decide
theorem witness_BeginOpensNumberedFrame :
    State.reset.inFrame = false ∧ openState.inFrame = true ∧
    (0x00006200 : Word).extractLsb' 12 4 = 0x6 ∧ (0x00006200 : Word).extractLsb' 9 3 ≠ 0 ∧
    (0x00016000 : Word).extractLsb' 12 4 = 0x6 ∧ (0x00016000 : Word).extractLsb' 16 16 ≠ 0 := by decide
theorem witness_BeginnOpensNextBlock :
    State.reset.inFrame = false ∧ openState.inFrame = true ∧
    (0x00007001 : Word).extractLsb' 12 4 = 0x7 ∧ (0x00007001 : Word).extractLsb' 0 8 ≠ 0 ∧
    (0x00007200 : Word).extractLsb' 12 4 = 0x7 ∧ (0x00007200 : Word).extractLsb' 9 3 ≠ 0 ∧
    (0x00017000 : Word).extractLsb' 12 4 = 0x7 ∧ (0x00017000 : Word).extractLsb' 16 16 ≠ 0 := by decide
theorem witness_BeginrReopensBlock :
    State.reset.inFrame = false ∧ openState.inFrame = true ∧
    (0x00008080 : Word).extractLsb' 12 4 = 0x8 ∧ (0x00008080 : Word).extractLsb' 0 8 ≠ 0 ∧
    (0x00008800 : Word).extractLsb' 12 4 = 0x8 ∧ (0x00008800 : Word).extractLsb' 9 3 ≠ 0 ∧
    (0x00018000 : Word).extractLsb' 12 4 = 0x8 ∧ (0x00018000 : Word).extractLsb' 16 16 ≠ 0 := by decide
theorem witness_DataEmitsAndFolds :
    (openState.inFrame = true ∧ openState.cnt.toNat ≠ payloadLen openState.size) ∧
    (({ openState with cnt := 127 } : State).cnt.toNat ≠ payloadLen openState.size) ∧
    (fullState.inFrame = true ∧ fullState.cnt.toNat = payloadLen fullState.size) ∧ State.reset.inFrame = false ∧
    (0x00009100 : Word).extractLsb' 12 4 = 0x9 ∧ (0x00009100 : Word).extractLsb' 8 4 ≠ 0 ∧
    (0x00019041 : Word).extractLsb' 12 4 = 0x9 ∧ (0x00019041 : Word).extractLsb' 16 16 ≠ 0 := by decide
theorem witness_EndPadsAndEmitsTrailer :
    128 = payloadLen openState.size - openState.cnt.toNat ∧ 0 = payloadLen fullState.size - fullState.cnt.toNat ∧
    (({ openState with mode := .crc16 } : State).inFrame = true ∧ ({ openState with mode := .crc16 } : State).mode = .crc16) ∧
    (openState.inFrame = true ∧ openState.mode = .sum8) ∧ fullState.cnt.toNat ≤ payloadLen fullState.size ∧
    State.reset.inFrame = false ∧ (0x0000A0FF : Word).extractLsb' 12 4 = 0xA ∧ (0x0000A0FF : Word) ≠ 0x0000A000 := by decide
theorem witness_AbortAbandonsFrame : (0x0000B001 : Word).extractLsb' 12 4 = 0xB ∧ (0x0000B001 : Word) ≠ 0x0000B000 := by decide
theorem witness_ClrerrClearsRecord :
    nextOf (exec .clrerr State.reset) = some State.reset ∧
    (0x0000C001 : Word).extractLsb' 12 4 = 0xC ∧ (0x0000C001 : Word) ≠ 0x0000C000 := by decide
theorem witness_SumIsTotalModulo256 : State.reset.sum = 0 ∧ ([1, 2, 3] : List Byte).Perm [3, 1, 2] := by decide
theorem witness_ChkIsChecksumOfFoldedBytes :
    (crcState.inFrame = false ∧ crcState.mode = .crc16) ∧ (State.reset.inFrame = false ∧ State.reset.mode = .sum8) := by decide
theorem witness_TrailerIsBigEndian : crcState.mode = .crc16 ∧ State.reset.mode = .sum8 := by decide
theorem witness_CommandsOfFrameEmitOneFrame :
    State.reset.inFrame = false ∧ opensAs (.beginNext .s128) State.reset.blk = some (.s128, 0x00) ∧
    (List.replicate 128 (0x41 : Byte)).length ≤ payloadLen .s128 ∧ ([] : List Byte).length ≤ payloadLen .s1024 :=
  ⟨rfl, by decide, by simp [payloadLen], by decide⟩
theorem witness_RetransmittedFrameIsIdentical :
    ∃ t₁ t₂ : State,
      crcState.inFrame = false ∧ ({ crcState with blk := 0x07, sum := 0x55 } : State).inFrame = false ∧
      opensAs (.beginNext .s128) crcState.blk = some (.s128, 0x00) ∧ opensAs (.beginFrame .s128 0x00) 0x07 = some (.s128, 0x00) ∧
      runCommands (frameCommands (.beginNext .s128) [0x41]) crcState = .next t₁ ∧
      runCommands (frameCommands (.beginFrame .s128 0x00) [0x41]) { crcState with blk := 0x07, sum := 0x55 } = .next t₂ :=
  have ⟨t₁, h₁⟩ := runCommands_next (frameCommands (.beginNext .s128) [0x41]) crcState
  have ⟨t₂, h₂⟩ := runCommands_next (frameCommands (.beginFrame .s128 0x00) [0x41]) { crcState with blk := 0x07, sum := 0x55 }
  ⟨t₁, t₂, rfl, rfl, rfl, rfl, h₁, h₂⟩
theorem witness_BlockNumberAdvancesOncePerBeginn :
    State.reset.inFrame = false ∧
    (∀ f ∈ ([(.beginNext .s128, [0x41]), (.beginAgain .s128, [0x41])] : List (Instr × List Byte)),
      ∃ z : PSize, (f.1 = .beginNext z ∨ f.1 = .beginAgain z) ∧ f.2.length ≤ payloadLen z) :=
  ⟨rfl, fun f hf => ⟨.s128, by
    simp only [List.mem_cons, List.not_mem_nil, or_false] at hf
    rcases hf with rfl | rfl <;> decide⟩⟩
theorem witness_RaisedErrorChangesOnlyRecord :
    State.reset.err = false ∧ (nextOf (execute 0x00009041 State.reset)).map State.err = some true ∧
    (nextOf (execute 0x00009001 fullState)).map State.err = some true := by decide
theorem witness_FirstErrorRecordIsKept :
    ({ State.reset with err := true } : State).err = true ∧ (0x0000D000 : Word) ≠ 0x0000C000 ∧
    (nextOf (execute 0x0000D000 { State.reset with err := true })).isSome = true := by decide
theorem witness_ErrorRecordGatesNothing :
    (nextOf (execute 0x00009041 openState)).isSome = true ∧
    (nextOf (execute 0x00009041 (openState.withRecordOf { State.reset with err := true, errCode := 1 }))).isSome = true := by decide
theorem witness_ErrorOutputFollowsRecord :
    errO State.reset = false ∧ (nextOf (step (withInputs [.write 0 0x0000D000] State.reset))).map errO = some true ∧
    (nextOf (step (withInputs [.write 0 0x0000C000] { State.reset with err := true }))).map errO = some false ∧
    (nextOf (step (withInputs [.assertReset] { State.reset with err := true }))).map errO = some false := by decide
theorem witness_StepRunsDecodedCommand :
    (withInputs [.write 0 0x00002031, .read 2] State.reset).inputs = .write 0 0x00002031 :: [.read 2] ∧
    State.reset.held = [] ∧ decode 0x00002031 = .cmd (.upd 0x31) := by decide
theorem witness_FetchedWordRunsNext : decodeTableWord 32 0x61FF = some (.beginFrame .s1024 0xFF) := by decide
theorem witness_RegisterMapReadsAndIgnoredWrites :
    11 ≤ (11 : BitVec 4).toNat ∧ 11 ≤ (15 : BitVec 4).toNat ∧ ((10 : BitVec 4) ≠ 0 ∧ (10 : BitVec 4) ≠ 9) ∧
    ((1 : BitVec 4) ≠ 0 ∧ (1 : BitVec 4) ≠ 9) := by decide
theorem witness_ReadsHaveNoSideEffect :
    State.reset.held = [] ∧ (withInputs [.read 1] State.reset).inputs = .read 1 :: [] ∧
    (withInputs [.read 1, .read 1] State.reset).inputs = .read 1 :: .read 1 :: [] := by decide
theorem witness_TidxWriteSelectsTableEntry :
    State.reset.held = [] ∧ (withInputs [.write 9 0x1FF] State.reset).inputs = .write 9 0x1FF :: [] ∧
    (withInputs [.write 9 0x1FF, .read 10] State.reset).inputs = .write 9 0x1FF :: .read 10 :: [] := by decide
/-- A state whose CMD write is in progress. -/
def stalledState (xs : List Input) : State := { openState with held := [0x41, 0x42], inputs := xs }
theorem witness_AccessDuringCommandIsRefused :
    (stalledState [.read 1]).held ≠ [] ∧ (stalledState [.read 1]).inputs = .read 1 :: [] ∧
    (stalledState [.write 0 0]).inputs = .write 0 0 :: [] := by decide
theorem witness_NothingHappensWithoutInput : State.reset.inputs = [] ∧ (stalledState []).hung ∧ State.reset.ended := by decide
theorem witness_ConsumerTakesOldestByte :
    (stalledState [.take]).inputs = .take :: [] ∧ (stalledState [.take]).held = 0x41 :: [0x42] ∧
    (withInputs [.take] State.reset).inputs = .take :: [] ∧ State.reset.held = [] ∧
    (nextOf (step (stalledState [.take]))).isSome = true := by decide
theorem witness_WriteCompletesWhenBytesAreTaken :
    ∃ t : State,
      State.reset.held = [] ∧
      (withInputs [.write 0 0x00006001, .take, .take, .take] State.reset).inputs =
        .write 0 0x00006001 :: (List.replicate 3 .take ++ []) ∧
      execute 0x00006001 { withInputs [.write 0 0x00006001, .take, .take, .take] State.reset with inputs := [] } = .next t ∧
      3 ≤ t.held.length ∧ t.held.length ≤ 3 :=
  ⟨_, rfl, rfl, rfl, by decide, by decide⟩
theorem witness_OutputOnlyGrows :
    (nextOf (step (withInputs [.write 0 0x00009041] openState))).isSome = true ∧
    (withInputs [.write 0 0x00009041] openState).inputs ≠ .assertReset :: [] := by decide
theorem witness_ResetSetsEveryRegister :
    (withInputs [.assertReset] fullState).inputs = .assertReset :: [] ∧
    nextOf (step (withInputs [.assertReset] fullState)) = some State.reset := by decide
theorem witness_ResetCutsCommandAfterAnyPrefix :
    ∃ t : State,
      State.reset.held = [] ∧
      (withInputs [.write 0 0x00006001, .take, .take, .assertReset] State.reset).inputs =
        .write 0 0x00006001 :: (List.replicate 2 .take ++ .assertReset :: []) ∧
      execute 0x00006001 { withInputs [.write 0 0x00006001, .take, .take, .assertReset] State.reset with inputs := [] } = .next t ∧
      2 ≤ t.held.length :=
  ⟨_, rfl, rfl, rfl, by decide⟩
/-- A frame opened for block 0 over the byte 0xAA, with the payload 0x41 so far. -/
def frameState (xs : List Input) : State :=
  { openState with cnt := 1, crc := 0x58E5, sum := 0x41, taken := [0xAA, 0x01, 0x00, 0xFF, 0x41], inputs := xs }
theorem witness_frameState_openedAt (xs : List Input) : (frameState xs).OpenedAt [0xAA] :=
  have h : (frameState []).OpenedAt [0xAA] := ⟨[0x41], by decide, by decide, by decide, by decide⟩
  h.of_eq rfl rfl rfl rfl rfl rfl
theorem witness_StepKeepsInvariant :
    (frameState [.write 0 0x00009001]).Inv ∧ (frameState [.write 0 0x0000D000]).Inv ∧ State.reset.Inv ∧
    (nextOf (step (frameState [.write 0 0x00009001]))).isSome = true ∧
    (nextOf (step (frameState [.write 0 0x0000D000]))).isSome = true :=
  ⟨⟨by decide, by decide, by decide, fun _ => ⟨_, witness_frameState_openedAt _⟩⟩,
    ⟨by decide, by decide, by decide, fun _ => ⟨_, witness_frameState_openedAt _⟩⟩,
    ⟨by decide, by decide, by decide, fun h => by cases h⟩, by decide, by decide⟩
theorem witness_OpenFrameGrowsByPayloadOnly :
    (State.reset.inFrame = false ∧
      (nextOf (step (withInputs [.write 0 0x00006001] State.reset))).map State.inFrame = some true) ∧
    ((frameState [.write 0 0x00009001]).cnt.toNat ≤ payloadLen (frameState []).size ∧
      (frameState [.write 0 0x00009001]).OpenedAt [0xAA] ∧ (frameState []).inFrame = true ∧
      (nextOf (step (frameState [.write 0 0x00009001]))).map (fun t => (t.inFrame, t.cnt)) = some (true, 2) ∧
      (nextOf (step (frameState [.write 0 0x00000000]))).map (fun t => (t.inFrame, t.cnt)) = some (true, 1)) :=
  ⟨by decide, by decide, witness_frameState_openedAt _, by decide, by decide, by decide⟩
/-- BEGIN 128, 1 with its three transfers, a refused CLR, DATA 0x41 with its transfer, then END. -/
def sectionState : State :=
  withInputs [.write 0 0x00006001, .take, .take, .take, .write 0 0x00001000, .write 0 0x00009041, .take, .write 0 0x0000A000] State.reset
theorem next_of_nextOf {o : Host.Outcome State Fault Refusal} (h : (nextOf o).map State.inFrame = some true) :
    ∃ v, o = .next v ∧ v.inFrame = true := by
  cases o with
  | next v => exact ⟨v, rfl, by simpa [nextOf] using h⟩
  | fault f => cases f
  | refused r => simp [nextOf] at h
theorem witness_SectionFromBeginToEndIsOneFrame :
    ∃ u : State,
      sectionState.inFrame = false ∧
      (∀ j : Nat, j ≤ 6 → ∃ v : State, Host.Core.run core (j + 1) sectionState = .next v ∧ v.inFrame = true) ∧
      Host.Core.run core (6 + 1) sectionState = .next u ∧ u.held = [] ∧ u.inputs = .write 0 0x0000A000 :: [] ∧ u.cnt = 1 :=
  have h : ∀ j : Fin 7, (nextOf (Host.Core.run core (j.val + 1) sectionState)).map State.inFrame = some true := by decide
  ⟨_, rfl, fun j hj => next_of_nextOf (h ⟨j, by omega⟩), rfl, rfl, rfl, by decide⟩
theorem witness_StepKeepsRecordFitting :
    ({ State.reset with err := true, errCode := 3, errInfo := 0x00009041 } : State).RecordFits ∧
    (nextOf (step { State.reset with err := true, errCode := 3, errInfo := 0x00009041, inputs := [.write 0 0x0000D000] })).isSome = true := by
  decide
theorem witness_ModeAndFillFixedInFrame :
    openState.inFrame = true ∧ (nextOf (step (withInputs [.write 0 0x00004001] openState))).isSome = true ∧
    ∀ rest : List Input, (withInputs [.write 0 0x00004001] openState).inputs ≠ .assertReset :: rest :=
  ⟨by decide, by decide, fun _ h => by cases h⟩
theorem witness_OnlyBeginEndAbortMoveFrameState :
    (State.reset.inFrame = false ∧ (nextOf (step (withInputs [.write 0 0x00006001] State.reset))).map State.inFrame = some true) ∧
    (openState.inFrame = true ∧ (nextOf (step (withInputs [.write 0 0x0000B000] openState))).map State.inFrame = some false) := by decide
theorem witness_RegistersHaveTheirOnlyWriters :
    (after (.setmode .crc16) State.reset).map State.mode = some .crc16 ∧ (after (.setfill 0) State.reset).map State.fill = some 0 ∧
    (after (.beginFrame .s1024 5) State.reset).map (fun t => (t.size, t.blk)) = some (.s1024, 5) := by decide
theorem witness_LinesAssembleToTheirWords :
    0xFF ≤ 0xFF ∧ (∀ b ∈ ([0x00, 0xFF] : List Nat), b ≤ 0xFF) ∧ (SourceLine.frame 1024 0xFF [0x41, 0xFF]).wf = true ∧
    (SourceLine.nameblk [0x61]).wf = true ∧ (127 ≠ 128 ∧ 127 ≠ 1024) ∧ 0xFF < 0x100 ∧
    (∃ b ∈ ([0x41, 0x100] : List Nat), 0xFF < b) ∧ (SourceLine.setmode 2).wf = false := by decide

end Sys2Proof
end

section
/-! PROOFS. The scope of the machine (spec/00_scope.md): it moves only when something happens at its pins (R6). -/

namespace Sys2Proof
open Machine

/-- Settles O39: no input is waiting, so the step is the one `step_nil` describes, whatever the registers, the bytes held or the error record are. -/
theorem nothingHappensWithoutInput : Obligations.NothingHappensWithoutInput := by
  unfold Obligations.NothingHappensWithoutInput
  intro s noInput
  exact step_nil noInput

end Sys2Proof
end

section
/-! PROOFS. What a command and a step can do to each register (spec/10_state.md R20 to R42), said once for the invariants below. -/

namespace Sys2Proof.Machine

/-! ## END, field by field (R120) -/

@[simp] theorem State.padAndClose_mode (p : Sum8TLen) (s : State) : (s.padAndClose p).mode = s.mode := by
  simp [State.padAndClose, State.padBytes_eq]
@[simp] theorem State.padAndClose_fill (p : Sum8TLen) (s : State) : (s.padAndClose p).fill = s.fill := by
  simp [State.padAndClose, State.padBytes_eq]
@[simp] theorem State.padAndClose_inFrame (p : Sum8TLen) (s : State) : (s.padAndClose p).inFrame = false := rfl
@[simp] theorem State.padAndClose_size (p : Sum8TLen) (s : State) : (s.padAndClose p).size = s.size := by
  simp [State.padAndClose, State.padBytes_eq]
@[simp] theorem State.padAndClose_cnt (p : Sum8TLen) (s : State) :
    (s.padAndClose p).cnt = s.cnt + BitVec.ofNat 11 (padCount s) := by
  simp [State.padAndClose, State.padBytes_eq]
@[simp] theorem State.padAndClose_blk (p : Sum8TLen) (s : State) : (s.padAndClose p).blk = s.blk := by
  simp [State.padAndClose, State.padBytes_eq]
@[simp] theorem State.padAndClose_err (p : Sum8TLen) (s : State) : (s.padAndClose p).err = s.err := by
  simp [State.padAndClose, State.padBytes_eq]
@[simp] theorem State.padAndClose_errCode (p : Sum8TLen) (s : State) : (s.padAndClose p).errCode = s.errCode := by
  simp [State.padAndClose, State.padBytes_eq]
@[simp] theorem State.padAndClose_errInfo (p : Sum8TLen) (s : State) : (s.padAndClose p).errInfo = s.errInfo := by
  simp [State.padAndClose, State.padBytes_eq]
@[simp] theorem State.padAndClose_tidx (p : Sum8TLen) (s : State) : (s.padAndClose p).tidx = s.tidx := by
  simp [State.padAndClose, State.padBytes_eq]
@[simp] theorem State.padAndClose_taken (p : Sum8TLen) (s : State) : (s.padAndClose p).taken = s.taken := by
  simp [State.padAndClose, State.padBytes_eq]
@[simp] theorem State.padAndClose_inputs (p : Sum8TLen) (s : State) : (s.padAndClose p).inputs = s.inputs := by
  simp [State.padAndClose, State.padBytes_eq]
@[simp] theorem State.padAndClose_busData (p : Sum8TLen) (s : State) : (s.padAndClose p).busData = s.busData := by
  simp [State.padAndClose, State.padBytes_eq]

/-- No payload is longer than 1024 bytes, so CNT's 11 bits hold every count up to its size (R28, R110). -/
theorem payloadLen_le (z : PSize) : payloadLen z ≤ 1024 := by cases z <;> decide

/-- END's padding stops exactly at the payload size (R120). -/
theorem State.padAndClose_cnt_toNat {s : State} (p : Sum8TLen) (h : s.cnt.toNat ≤ payloadLen s.size) :
    (s.padAndClose p).cnt.toNat = payloadLen s.size := by
  have hmax := payloadLen_le s.size
  simp only [State.padAndClose_cnt, BitVec.toNat_add, BitVec.toNat_ofNat, padCount]
  omega

/-- A payload that is not full has room for CNT to count one byte more (R28). -/
theorem State.payloadByte_cnt_toNat {s : State} (b : Byte) (hf : payloadFull s = false) (hc : s.cnt.toNat ≤ payloadLen s.size) :
    s.cnt.toNat < 2047 ∧ (s.payloadByte b).cnt.toNat = s.cnt.toNat + 1 := by
  have hmax := payloadLen_le s.size
  have hne : s.cnt.toNat ≠ payloadLen s.size := by simpa [payloadFull] using hf
  have hone : (1 : BitVec 11).toNat = 1 := rfl
  refine ⟨by omega, ?_⟩
  rw [State.payloadByte_cnt, BitVec.toNat_add, hone]
  omega

/-! ## The action of a command, field by field -/

/-- DATA raises E_OVERFLOW on a full payload and takes its byte otherwise (R119). -/
theorem action_data_cases (b : Byte) (s : State) :
    (payloadFull s = true ∧ action (.data b) s = s.raise .eOverflow (encode (.data b))) ∨
    (payloadFull s = false ∧ action (.data b) s = s.payloadByte b) := by
  cases h : payloadFull s <;> simp [action, h]

/-- Only SETMODE writes MODE (R22). -/
theorem action_mode {i : Instr} (s : State) (h : ∀ m, i ≠ .setmode m) : (action i s).mode = s.mode := by
  cases i with
  | setmode m => exact absurd rfl (h m)
  | data b => obtain ⟨-, hb⟩ | ⟨-, hb⟩ := action_data_cases b s <;> simp [hb]
  | _ => simp [action]

/-- Only SETFILL writes FILL (R25). -/
theorem action_fill {i : Instr} (s : State) (h : ∀ f, i ≠ .setfill f) : (action i s).fill = s.fill := by
  cases i with
  | setfill f => exact absurd rfl (h f)
  | data b => obtain ⟨-, hb⟩ | ⟨-, hb⟩ := action_data_cases b s <;> simp [hb]
  | _ => simp [action]

/-- Only the BEGIN family writes SIZE and BLK (R27, R29). -/
theorem action_size_blk {i : Instr} (s : State) (h : opensFrame i = false) :
    (action i s).size = s.size ∧ (action i s).blk = s.blk := by
  cases i with
  | beginFrame z n | beginNext z | beginAgain z => cases h
  | data b => obtain ⟨-, hb⟩ | ⟨-, hb⟩ := action_data_cases b s <;> simp [hb]
  | _ => simp [action]

/-- INFRAME after a command's action: the BEGIN family sets it, END and ABORT clear it, no other moves it (R26). -/
theorem action_inFrame (i : Instr) (s : State) :
    (action i s).inFrame = (opensFrame i || (!closesFrame i && s.inFrame)) := by
  cases i with
  | data b => obtain ⟨-, hb⟩ | ⟨-, hb⟩ := action_data_cases b s <;> simp [hb, opensFrame, closesFrame]
  | _ => simp [action, opensFrame, closesFrame]

/-- No command touches TIDX, the bytes already taken or the outside world (R33, R58). -/
theorem action_outside (i : Instr) (s : State) :
    (action i s).tidx = s.tidx ∧ (action i s).taken = s.taken ∧ (action i s).inputs = s.inputs ∧
      (action i s).busData = s.busData := by
  cases i with
  | data b => obtain ⟨-, hb⟩ | ⟨-, hb⟩ := action_data_cases b s <;> simp [hb]
  | _ => simp [action]

/-- CNT stays within the payload size under a command's action: DATA counts only below it, and END stops at it (R28). -/
theorem action_cnt_le (i : Instr) {s : State} (hc : s.cnt.toNat ≤ payloadLen s.size) :
    (action i s).cnt.toNat ≤ payloadLen (action i s).size := by
  cases i with
  | beginFrame z n | beginNext z | beginAgain z => simp [action]
  | data b =>
    obtain ⟨-, hb⟩ | ⟨hf, hb⟩ := action_data_cases b s
    · simpa [hb] using hc
    · have hne : s.cnt.toNat ≠ payloadLen s.size := by simpa [payloadFull] using hf
      obtain ⟨-, hcnt⟩ := State.payloadByte_cnt_toNat b hf hc
      rw [hb, hcnt, State.payloadByte_size]
      omega
  | endFrame =>
    have hend := State.padAndClose_cnt_toNat Config.pSum8TLen hc
    simp only [action, State.padAndClose_size]
    exact hend.le
  | _ => simpa [action] using hc

/-- The action of a BEGIN-family command is `openFrame` with the size and number it resolves to (R115 to R118). -/
theorem action_of_opensFrame {i : Instr} (s : State) (h : opensFrame i = true) :
    ∃ z n, action i s = s.openFrame z n := by
  cases i with
  | beginFrame z n => exact ⟨z, n, rfl⟩
  | beginNext z => exact ⟨z, nextBlock s.blk, rfl⟩
  | beginAgain z => exact ⟨z, s.blk, rfl⟩
  | _ => cases h

/-- The commands legal in a frame that leave it open (R141). -/
theorem inFrame_action_cases {i : Instr} (hl : legal i true = true) (hc : closesFrame i = false) :
    i = .nop ∨ i = .clrerr ∨ ∃ b, i = .data b := by
  cases i with
  | nop => exact .inl rfl
  | clrerr => exact .inr (.inl rfl)
  | data b => exact .inr (.inr ⟨b, rfl⟩)
  | endFrame | abort => cases hc
  | _ => cases hl

/-! ## What two states share -/

/-- Two states agree on all that a frame is made of: its settings, its registers and the stream. -/
structure SameFrame (s t : State) : Prop where
  mode : t.mode = s.mode
  crc : t.crc = s.crc
  sum : t.sum = s.sum
  fill : t.fill = s.fill
  inFrame : t.inFrame = s.inFrame
  size : t.size = s.size
  cnt : t.cnt = s.cnt
  blk : t.blk = s.blk
  out : t.out = s.out

/-- Two states hold the same error record (R30 to R32). -/
structure SameRecord (s t : State) : Prop where
  err : t.err = s.err
  errCode : t.errCode = s.errCode
  errInfo : t.errInfo = s.errInfo

theorem SameFrame.openedAt {s t : State} {pre : List Byte} (same : SameFrame s t) (h : s.OpenedAt pre) : t.OpenedAt pre :=
  h.of_eq same.out same.size same.blk same.cnt same.crc same.sum

theorem SameFrame.cnt_le {s t : State} (same : SameFrame s t) (h : s.cnt.toNat ≤ payloadLen s.size) :
    t.cnt.toNat ≤ payloadLen t.size := by
  rwa [same.cnt, same.size]

theorem State.out_setInputs (s : State) (rest : List Input) : ({ s with inputs := rest } : State).out = s.out := rfl

/-- An error changes nothing a frame is made of (R144). -/
theorem raise_sameFrame (e : ErrKind) (w : Word) (s : State) (rest : List Input) :
    SameFrame s (State.raise e w { s with inputs := rest }) := by
  constructor <;> simp [State.out]

/-- An error is recorded, or leaves no trace (R143). -/
theorem raise_record (e : ErrKind) (w : Word) (s : State) (rest : List Input) :
    SameRecord s (State.raise e w { s with inputs := rest }) ∨
    State.raise e w { s with inputs := rest } = { s with inputs := rest, err := true, errCode := e.code, errInfo := w } := by
  cases he : s.err with
  | false => exact .inr (State.raise_first e w rfl)
  | true =>
    rw [State.raise_kept e w rfl]
    exact .inl ⟨he.symm, rfl, rfl⟩

/-- A command leaves the error record, but for CLRERR and for DATA on a full payload (R131, R119). -/
theorem action_sameRecord {i : Instr} {s : State} (hi : i ≠ .clrerr) (room : ∀ b, i = .data b → payloadFull s = false) :
    SameRecord s (action i s) := by
  cases i with
  | clrerr => exact absurd rfl hi
  | data b => constructor <;> simp [action, room b rfl]
  | _ => constructor <;> simp [action]

/-! ## The step -/

/-- What a step that answers a next state has done: left frame and record alone (it waited, read, wrote no CMD, or transferred a byte), reset, recorded an error, or acted as a legal command. -/
inductive StepEffect (s t : State) : Prop where
  | quiet (frame : SameFrame s t) (record : SameRecord s t)
  | reset (rest : List Input) (hin : s.inputs = .assertReset :: rest) (ht : t = State.hardReset { s with inputs := rest })
  | raised (e : ErrKind) (w : Word) (rest : List Input) (fits : codeFits e.code w = true)
      (ht : t = State.raise e w { s with inputs := rest })
  | acted (i : Instr) (w : Word) (rest : List Input) (hin : s.inputs = .write 0 w :: rest) (hd : decode w = .cmd i)
      (hl : legal i s.inFrame = true) (room : ∀ b, i = .data b → payloadFull s = false)
      (ht : t = action i { s with inputs := rest })

/-- A command refused for the frame state is one that E_STATE is raised by (R140, R141). -/
theorem stateChecked_of_not_legal {i : Instr} {f : Bool} (h : legal i f = false) : stateChecked i = true := by
  cases i with
  | nop | abort | clrerr => cases h
  | _ => rfl

/-- Decoding a command's word gives the command back (R76). -/
theorem decode_encode (i : Instr) : decode (encode i) = .cmd i := by
  cases i with
  | nop | clr | trl | endFrame | abort | clrerr => decide
  | upd b | setfill b | data b => revert b; decide
  | setmode m => cases m <;> decide
  | beginNext z | beginAgain z => cases z <;> decide
  | beginFrame z n => cases z <;> revert n <;> decide

theorem codeFits_eState {i : Instr} (h : stateChecked i = true) : codeFits ErrKind.eState.code (encode i) = true := by
  simp [codeFits, decode_encode, ErrKind.code, h]

theorem codeFits_eOverflow (b : Byte) : codeFits ErrKind.eOverflow.code (encode (.data b)) = true := by
  simp [codeFits, decode_encode, ErrKind.code, isData]

/-- A word written to CMD raises one of its errors or acts as its command. -/
theorem execute_effect {w : Word} {s t : State} {rest : List Input} (hin : s.inputs = .write 0 w :: rest)
    (h : execute w { s with inputs := rest } = .next t) : StepEffect s t := by
  obtain ⟨hd, ht⟩ | ⟨op, hd, ht⟩ | ⟨i, hd, hx⟩ := execute_cases h
  · exact .raised .eIllegal w rest (by simp [codeFits, hd, ErrKind.code]) ht
  · exact .raised .eRsvd w rest (by simp [codeFits, hd, ErrKind.code]) ht
  · obtain ⟨hl, ht⟩ | ⟨hl, ht⟩ := exec_cases hx
    · by_cases room : ∀ b, i = .data b → payloadFull s = false
      · exact .acted i w rest hin hd hl room ht
      · push Not at room
        obtain ⟨b, rfl, hf⟩ := room
        obtain ⟨-, hb⟩ | ⟨hn, -⟩ := action_data_cases b { s with inputs := rest }
        · exact .raised .eOverflow _ rest (codeFits_eOverflow b) (ht.trans hb)
        · exact absurd hn hf
    · exact .raised .eState _ rest (codeFits_eState (stateChecked_of_not_legal hl)) ht

/-- Every step that answers a next state has one of the four effects. -/
theorem step_effect {s t : State} (h : step s = .next t) : StepEffect s t := by
  obtain ⟨-, rfl⟩ | ⟨idx, rest, -, -, rfl⟩ | ⟨idx, v, rest, hin, -, hw⟩ | ⟨rest, hin, rfl⟩ | ⟨rest, -, rfl⟩ := step_cases h
  · exact .quiet (by constructor <;> rfl) (by constructor <;> rfl)
  · exact .quiet (by constructor <;> rfl) (by constructor <;> rfl)
  · obtain ⟨rfl, hx⟩ | ⟨-, rfl⟩ | ⟨-, -, rfl⟩ := busWrite_cases hw
    · exact execute_effect hin hx
    · exact .quiet (by constructor <;> rfl) (by constructor <;> rfl)
    · exact .quiet (by constructor <;> rfl) (by constructor <;> rfl)
  · exact .reset rest hin rfl
  · exact .quiet (by constructor <;> simp [State.out_setInputs]) (by constructor <;> simp)

/-! ## Steps that open a frame and steps that keep it open -/

/-- A step from idle to in frame is `openFrame` (R115, R123). -/
theorem step_opens {s t : State} (h : step s = .next t) (hs : s.inFrame = false) (ht : t.inFrame = true) :
    ∃ z n, SameFrame (s.openFrame z n) t := by
  cases step_effect h with
  | quiet frame _ => simp [frame.inFrame, hs] at ht
  | reset rest _ heq => simp [heq] at ht
  | raised e w rest _ heq => simp [heq, hs] at ht
  | acted i w rest _ _ _ _ heq =>
    subst heq
    have hi : opensFrame i = true := by simpa [action_inFrame, hs] using ht
    obtain ⟨z, n, hz⟩ := action_of_opensFrame { s with inputs := rest } hi
    rw [hz]
    exact ⟨z, n, by constructor <;> rfl⟩

/-- A step that keeps a frame open leaves it as it is, or adds one payload byte to one that is not full (R119, R123). -/
theorem step_keeps_open {s t : State} (h : step s = .next t) (hs : s.inFrame = true) (ht : t.inFrame = true) :
    SameFrame s t ∨ ∃ b, payloadFull s = false ∧ SameFrame (s.payloadByte b) t := by
  cases step_effect h with
  | quiet frame _ => exact .inl frame
  | reset rest _ heq => simp [heq] at ht
  | raised e w rest _ heq => exact .inl (heq ▸ raise_sameFrame e w s rest)
  | acted i w rest _ _ hl room heq =>
    subst heq
    rw [hs] at hl
    have hc : closesFrame i = false := by
      cases i with
      | endFrame | abort => simp [action_inFrame, opensFrame, closesFrame] at ht
      | _ => rfl
    obtain rfl | rfl | ⟨b, rfl⟩ := inFrame_action_cases hl hc
    · exact .inl (by constructor <;> rfl)
    · exact .inl (by constructor <;> rfl)
    · have hf := room b rfl
      obtain ⟨hn, -⟩ | ⟨-, hb⟩ := action_data_cases b { s with inputs := rest }
      · exact absurd hn (by simpa [payloadFull] using hf)
      · exact .inr ⟨b, hf, hb ▸ (by constructor <;> rfl)⟩

/-- The step that opens a frame opens it over all that stood in `OUT`, with no payload yet (R115). -/
theorem step_opens_openedAt {s t : State} (h : step s = .next t) (hs : s.inFrame = false) (ht : t.inFrame = true) :
    t.OpenedAt s.out ∧ t.cnt = 0 := by
  obtain ⟨z, n, same⟩ := step_opens h hs ht
  exact ⟨same.openedAt (State.openFrame_openedAt z n s), same.cnt⟩

/-- A step that keeps a frame open keeps it open over the same bytes, its payload longer by at most one byte (R42). -/
theorem step_keeps_openedAt {s t : State} {pre : List Byte} (h : step s = .next t) (hc : s.cnt.toNat ≤ payloadLen s.size)
    (ho : s.OpenedAt pre) (hs : s.inFrame = true) (ht : t.inFrame = true) :
    t.OpenedAt pre ∧ t.size = s.size ∧ t.blk = s.blk ∧ (t.cnt = s.cnt ∨ t.cnt.toNat = s.cnt.toNat + 1) := by
  obtain same | ⟨b, hf, same⟩ := step_keeps_open h hs ht
  · exact ⟨same.openedAt ho, same.size, same.blk, .inl same.cnt⟩
  · obtain ⟨hlt, hcnt⟩ := State.payloadByte_cnt_toNat b hf hc
    exact ⟨same.openedAt (State.payloadByte_openedAt b hlt ho), same.size, same.blk, .inr (same.cnt ▸ hcnt)⟩

/-! ## The invariants, one point each -/

/-- R42, first point. -/
theorem step_keeps_cnt_le {s t : State} (h : step s = .next t) (hc : s.cnt.toNat ≤ payloadLen s.size) :
    t.cnt.toNat ≤ payloadLen t.size := by
  cases step_effect h with
  | quiet frame _ => exact frame.cnt_le hc
  | reset rest _ heq => simp [heq]
  | raised e w rest _ heq => exact heq ▸ (raise_sameFrame e w s rest).cnt_le hc
  | acted i w rest _ _ _ _ heq => exact heq ▸ action_cnt_le (s := { s with inputs := rest }) i hc

/-- What a step does to the error record: keep it, clear it, or make it the record of an error that its own word can raise (R143, R148, R160). -/
theorem step_record {s t : State} (h : step s = .next t) :
    SameRecord s t ∨ (t.err = false ∧ t.errCode = 0 ∧ t.errInfo = 0) ∨
    (∃ e : ErrKind, t.err = true ∧ t.errCode = e.code ∧ codeFits e.code t.errInfo = true) := by
  cases step_effect h with
  | quiet _ record => exact .inl record
  | reset rest _ heq => exact .inr (.inl (heq ▸ ⟨rfl, rfl, rfl⟩))
  | raised e w rest fits heq =>
    obtain same | hr := raise_record e w s rest
    · exact .inl (heq ▸ same)
    · exact .inr (.inr ⟨e, heq.trans hr ▸ ⟨rfl, rfl, fits⟩⟩)
  | acted i w rest _ _ _ room heq =>
    subst heq
    by_cases hi : i = .clrerr
    · subst hi; exact .inr (.inl ⟨rfl, rfl, rfl⟩)
    · obtain ⟨he, hcode, hinfo⟩ := action_sameRecord (s := { s with inputs := rest }) hi room
      exact .inl ⟨he, hcode, hinfo⟩

/-- Every code an error is recorded under is one of 1 to 4 (R31, R140). -/
theorem ErrKind.code_cases (e : ErrKind) : e.code = 1 ∨ e.code = 2 ∨ e.code = 3 ∨ e.code = 4 := by
  cases e <;> decide

/-- R42, second point. -/
theorem step_keeps_record_shape {s t : State} (h : step s = .next t)
    (hz : s.err = false → s.errCode = 0 ∧ s.errInfo = 0)
    (hc : s.err = true → s.errCode = 1 ∨ s.errCode = 2 ∨ s.errCode = 3 ∨ s.errCode = 4) :
    (t.err = false → t.errCode = 0 ∧ t.errInfo = 0) ∧
    (t.err = true → t.errCode = 1 ∨ t.errCode = 2 ∨ t.errCode = 3 ∨ t.errCode = 4) := by
  obtain same | ⟨herr, hcode, hinfo⟩ | ⟨e, herr, hcode, -⟩ := step_record h
  · rw [same.err, same.errCode, same.errInfo]
    exact ⟨hz, hc⟩
  · simp [herr, hcode, hinfo]
  · simpa [herr, hcode] using e.code_cases

/-- R42, third point. -/
theorem step_keeps_frame_bytes {s t : State} (h : step s = .next t) (hc : s.cnt.toNat ≤ payloadLen s.size)
    (ho : s.inFrame = true → ∃ pre, s.OpenedAt pre) (ht : t.inFrame = true) : ∃ pre, t.OpenedAt pre := by
  cases hs : s.inFrame with
  | false => exact ⟨s.out, (step_opens_openedAt h hs ht).1⟩
  | true =>
    obtain ⟨pre, hpre⟩ := ho hs
    exact ⟨pre, (step_keeps_openedAt h hc hpre hs ht).1⟩

/-- R42, fourth point: neither SETMODE nor SETFILL is legal in a frame (R22, R25). -/
theorem step_keeps_mode_fill {s t : State} (h : step s = .next t) (hs : s.inFrame = true)
    (hr : ∀ rest, s.inputs ≠ .assertReset :: rest) : t.mode = s.mode ∧ t.fill = s.fill := by
  cases step_effect h with
  | quiet frame _ => exact ⟨frame.mode, frame.fill⟩
  | reset rest hin _ => exact absurd hin (hr rest)
  | raised e w rest _ heq => exact heq ▸ ⟨(raise_sameFrame e w s rest).mode, (raise_sameFrame e w s rest).fill⟩
  | acted i w rest _ _ hl _ heq =>
    rw [hs] at hl
    have hm : ∀ m, i ≠ .setmode m := by rintro m rfl; cases hl
    have hf : ∀ f, i ≠ .setfill f := by rintro f rfl; cases hl
    exact heq ▸ ⟨action_mode _ hm, action_fill _ hf⟩

/-! ## The section from the opening step to END -/

/-- `v` stands in the frame that was opened from the idle state `s`: open over the bytes of `s`, its count in bounds, with the MODE and FILL of `s`. -/
structure InSectionOf (s v : State) : Prop where
  openedAt : v.OpenedAt s.out
  cnt_le : v.cnt.toNat ≤ payloadLen v.size
  mode : v.mode = s.mode
  fill : v.fill = s.fill

theorem step_opens_section {s t : State} (h : step s = .next t) (hs : s.inFrame = false) (ht : t.inFrame = true) :
    InSectionOf s t := by
  obtain ⟨z, n, same⟩ := step_opens h hs ht
  exact ⟨same.openedAt (State.openFrame_openedAt z n s), same.cnt_le (by simp), same.mode, same.fill⟩

theorem step_keeps_section {s v t : State} (h : step v = .next t) (hv : v.inFrame = true) (ht : t.inFrame = true)
    (sec : InSectionOf s v) : InSectionOf s t := by
  have hr : ∀ rest, v.inputs ≠ .assertReset :: rest := by
    intro rest hin
    rw [step_cons hin] at h
    cases h
    cases ht
  obtain ⟨hm, hf⟩ := step_keeps_mode_fill h hv hr
  obtain ⟨ho, -⟩ := step_keeps_openedAt h sec.cnt_le sec.openedAt hv ht
  exact ⟨ho, step_keeps_cnt_le h sec.cnt_le, hm.trans sec.mode, hf.trans sec.fill⟩

/-- A run from idle whose every state after the first step is in frame stays in the frame its first step opened. -/
theorem run_inSection {s u : State} (k : Nat) (hs : s.inFrame = false)
    (hin : ∀ j, j ≤ k → ∃ v, Host.Core.run core (j + 1) s = .next v ∧ v.inFrame = true)
    (hu : Host.Core.run core (k + 1) s = .next u) : InSectionOf s u ∧ u.inFrame = true := by
  induction k generalizing u with
  | zero =>
    obtain ⟨v, hv, hvf⟩ := hin 0 le_rfl
    obtain rfl : v = u := Host.Outcome.next.inj (hv.symm.trans hu)
    rw [run_succ_last 0 (run_zero s)] at hv
    exact ⟨step_opens_section hv hs hvf, hvf⟩
  | succ k ih =>
    obtain ⟨v, hv, -⟩ := hin k (Nat.le_succ k)
    obtain ⟨sec, hvf⟩ := ih (fun j hj => hin j (Nat.le_succ_of_le hj)) hv
    obtain ⟨u', hu', huf⟩ := hin (k + 1) le_rfl
    obtain rfl : u' = u := Host.Outcome.next.inj (hu'.symm.trans hu)
    rw [run_succ_last (k + 1) hv] at hu'
    exact ⟨step_keeps_section hu' hvf huf sec, huf⟩

/-- The host's write of END in a frame pads, emits the trailer and closes (R120). -/
theorem step_endWrite {u : State} {rest : List Input} (hin : u.inputs = .write 0 0x0000A000 :: rest) (hh : u.held = [])
    (hu : u.inFrame = true) : step u = .next (State.padAndClose .one { u with inputs := rest }) := by
  have hd : decode 0x0000A000 = .cmd .endFrame := by decide
  have hl : legal .endFrame u.inFrame = true := hu
  rw [step_cmdWrite hin hh, execute, hd]
  exact perform_legal (s := { u with inputs := rest }) _ hl

end Sys2Proof.Machine
end

section
/-! PROOFS. The invariants of spec/10_state.md R42 and the rules about the whole machine. -/

namespace Sys2Proof
open Machine

/-- Settles O45: each point of R42 is kept on its own, the bytes of an open frame because a step opens the frame anew or keeps it over the same bytes. -/
theorem stepKeepsInvariant : Obligations.StepKeepsInvariant := by
  unfold Obligations.StepKeepsInvariant
  intro s t hinv h
  obtain ⟨hcnt, hzero, hcode, hopen⟩ := hinv
  obtain ⟨hzero', hcode'⟩ := step_keeps_record_shape h hzero hcode
  exact ⟨step_keeps_cnt_le h hcnt, hzero', hcode', step_keeps_frame_bytes h hcnt hopen⟩

/-- Settles O46: every register the invariants speak of has its reset value. -/
theorem invariantHoldsAtReset : Obligations.InvariantHoldsAtReset := by
  unfold Obligations.InvariantHoldsAtReset
  exact ⟨⟨by decide, by decide, by decide, fun h => by cases h⟩, fun h => by cases h⟩

/-- Settles O47: a step keeps the record, clears it, or records an error its own word can raise. -/
theorem stepKeepsRecordFitting : Obligations.StepKeepsRecordFitting := by
  unfold Obligations.StepKeepsRecordFitting
  intro s t hfit h herr
  obtain same | ⟨hclear, -, -⟩ | ⟨e, -, hcode, hfits⟩ := step_record h
  · rw [same.err] at herr
    rw [same.errCode, same.errInfo]
    exact hfit herr
  · rw [hclear] at herr
    cases herr
  · rw [hcode]
    exact hfits

/-- Settles O48: the two commands that write MODE and FILL are refused in a frame. -/
theorem modeAndFillFixedInFrame : Obligations.ModeAndFillFixedInFrame := by
  unfold Obligations.ModeAndFillFixedInFrame
  intro s t h hs hr
  exact step_keeps_mode_fill h hs hr

/-- Settles O49: of the four effects of a step, only a reset and a command that acts move INFRAME, and `action_inFrame` says which commands do. -/
theorem onlyBeginEndAbortMoveFrameState : Obligations.OnlyBeginEndAbortMoveFrameState := by
  unfold Obligations.OnlyBeginEndAbortMoveFrameState
  intro s t h
  cases step_effect h with
  | quiet frame _ =>
    have hf := frame.inFrame
    exact ⟨fun hs ht => by simp [hf, hs] at ht, fun hs ht => by simp [hf, hs] at ht⟩
  | reset rest hin heq => exact ⟨fun _ ht => by simp [heq] at ht, fun _ _ => .inl ⟨rest, hin⟩⟩
  | raised e w rest _ heq =>
    have hf := heq ▸ (raise_sameFrame e w s rest).inFrame
    exact ⟨fun hs ht => by simp [hf, hs] at ht, fun hs ht => by simp [hf, hs] at ht⟩
  | acted i w rest hin hd _ _ heq =>
    have hf := action_inFrame i { s with inputs := rest }
    rw [← heq] at hf
    refine ⟨fun hs ht => ⟨w, rest, i, hin, hd, ?_⟩, fun hs ht => .inr ⟨w, rest, i, hin, hd, ?_⟩⟩
    · simpa [hs, ht] using hf
    · by_contra hc
      simp [hs, ht, hc] at hf

/-- Settles O50: a command acts, and the field lemmas of `action` name its writers, or raises an error, which writes the record only. -/
theorem registersHaveTheirOnlyWriters : Obligations.RegistersHaveTheirOnlyWriters := by
  unfold Obligations.RegistersHaveTheirOnlyWriters
  intro i s t h
  obtain ⟨-, rfl⟩ | ⟨-, rfl⟩ := exec_cases h
  · refine ⟨fun hm => ?_, fun hf => ?_, fun hz => ?_, fun hb => ?_, action_outside i s⟩
    · by_contra hi
      exact hm (action_mode s (by simpa using hi))
    · by_contra hi
      exact hf (action_fill s (by simpa using hi))
    · by_contra hi
      exact hz (action_size_blk s (by simpa using hi)).1
    · by_contra hi
      exact hb (action_size_blk s (by simpa using hi)).2
  · simp

/-- Settles O52: the opening step is `openFrame`, and a step that keeps the frame open adds no payload byte or one. -/
theorem openFrameGrowsByPayloadOnly : Obligations.OpenFrameGrowsByPayloadOnly := by
  unfold Obligations.OpenFrameGrowsByPayloadOnly
  exact ⟨fun _ _ h hs ht => step_opens_openedAt h hs ht,
    fun _ _ _ hc ho h hs ht => step_keeps_openedAt h hc ho hs ht⟩

/-- Settles O53: by induction the run stays in the frame its first step opened, and END closes the bytes of that frame. -/
theorem sectionFromBeginToEndIsOneFrame : Obligations.SectionFromBeginToEndIsOneFrame := by
  unfold Obligations.SectionFromBeginToEndIsOneFrame
  intro s u k rest hs hin hu hheld hend
  obtain ⟨sec, huf⟩ := run_inSection k hs hin hu
  have hopen : State.OpenedAt s.out { u with inputs := rest } := sec.openedAt
  obtain ⟨payload, hlen, hout⟩ := State.padAndClose_out hopen
  refine ⟨State.padAndClose .one { u with inputs := rest }, payload, ?_, rfl, hlen, ?_, ?_⟩
  · exact (run_succ_last (k + 1) hu).trans (step_endWrite hend hheld huf)
  · simpa [hlen] using sec.cnt_le
  · simpa [sec.mode, sec.fill] using hout

end Sys2Proof
end

section
/-! PROOFS. The registers as the host reads and writes them, the checksum commands, and reset (spec/10_state.md R33 to R41). -/

namespace Sys2Proof.Machine

/-! ## Register reads -/

/-- The fields of the packed status word do not overlap, so each reads back from its own bits (R35). -/
theorem packedStatus_fields (t : BitVec 2) (c : BitVec 4) (e z f m : Bool) :
    let w : Word := (t ++ c ++ BitVec.ofBool e ++ BitVec.ofBool z ++ BitVec.ofBool f ++ BitVec.ofBool m).setWidth 32
    w.getLsbD 0 = m ∧ w.getLsbD 1 = f ∧ w.getLsbD 2 = z ∧ w.getLsbD 3 = e ∧ w.extractLsb' 4 4 = c ∧
      w.extractLsb' 8 2 = t ∧ w.extractLsb' 10 22 = 0 := by
  decide +revert

/-- STATUS[9:8] is 2 in Crc16 mode and where `P_SUM8_TLEN` is 2, and 1 otherwise (R91). -/
theorem tLen_bits (p : Sum8TLen) (m : Mode) :
    BitVec.ofNat 2 (tLen p m) = if m = .crc16 ∨ p = .two then 0b10 else 0b01 := by
  cases m <;> cases p <;> rfl

/-- CHK reads CRC in Crc16 mode (R36, R97). -/
theorem readReg_chk_crc16 {s : State} (h : s.mode = .crc16) : readReg 4 s = s.crc.setWidth 32 := by
  show (chk s).setWidth 32 = _
  simp [chk, h]

/-- CHK reads SUM in Sum8 mode (R36, R97). -/
theorem readReg_chk_sum8 {s : State} (h : s.mode = .sum8) : readReg 4 s = s.sum.setWidth 32 := by
  show (chk s).setWidth 32 = _
  simp [chk, h]

/-- The reserved indices read 0 (R39). -/
theorem readReg_reserved {idx : BitVec 4} (s : State) (h : 11 ≤ idx.toNat) : readReg idx s = 0 := by
  obtain rfl | rfl | rfl | rfl | rfl : idx = 11 ∨ idx = 12 ∨ idx = 13 ∨ idx = 14 ∨ idx = 15 := by
    revert idx; decide
  all_goals rfl

/-- A write to an index other than CMD and TIDX is ignored (R54). -/
theorem busWrite_ignored {idx : BitVec 4} (v : Word) (s : State) (h0 : idx ≠ 0) (h9 : idx ≠ 9) :
    busWrite idx v s = .next s := by
  unfold busWrite
  split
  · next h => exact absurd (BitVec.eq_of_toNat_eq h) h0
  · next h => exact absurd (BitVec.eq_of_toNat_eq h) h9
  · rfl

/-! ## The host's accesses as steps -/

/-- A host read with no write in progress (R51). -/
theorem step_hostRead {s : State} {idx : BitVec 4} {rest : List Input} (h : s.inputs = .read idx :: rest) (hh : s.held = []) :
    step s = .next (busRead idx { s with inputs := rest }) := by
  have hb : ({ s with inputs := rest } : State).busy = false := (State.busy_eq_false _).mpr hh
  rw [step_cons h, onInput, hb]
  rfl

/-- A host write with no write in progress (R52). -/
theorem step_hostWrite {s : State} {idx : BitVec 4} {v : Word} {rest : List Input} (h : s.inputs = .write idx v :: rest)
    (hh : s.held = []) : step s = busWrite idx v { s with inputs := rest } := by
  have hb : ({ s with inputs := rest } : State).busy = false := (State.busy_eq_false _).mpr hh
  rw [step_cons h, onInput, hb]
  rfl

/-- A write to TIDX takes the low byte of the word (R33, R52). -/
theorem step_tidxWrite {s : State} {v : Word} {rest : List Input} (h : s.inputs = .write 9 v :: rest) (hh : s.held = []) :
    step s = .next { s with inputs := rest, tidx := v.extractLsb' 0 8 } := by
  rw [step_hostWrite h hh, ← BitVec.setWidth_eq_extractLsb' (by decide)]
  rfl

/-! ## UPD -/

/-- In an idle state one UPD a byte folds the bytes into both accumulators and changes nothing else (R101). -/
theorem runCommands_upd (bytes : List Byte) {s : State} (h : s.inFrame = false) :
    runCommands (bytes.map Instr.upd) s = .next { s with crc := crcFrom s.crc bytes, sum := sumFrom s.sum bytes } := by
  induction bytes generalizing s with
  | nil => rfl
  | cons b bytes ih =>
    have hx : exec (.upd b) s = .next (s.acc b) := perform_legal _ (by simp [legal, h])
    simp only [List.map_cons, runCommands, hx]
    exact ih h

end Sys2Proof.Machine
end

section
/-! PROOFS. The registers one by one (spec/10_state.md R33 to R41). -/

namespace Sys2Proof
open Machine

/-- Settles O22: CLR zeroes both accumulators, each UPD folds its byte into both, and CHK reads the one MODE selects. -/
theorem chkIsChecksumOfFoldedBytes : Obligations.ChkIsChecksumOfFoldedBytes := by
  unfold Obligations.ChkIsChecksumOfFoldedBytes
  intro s bytes h
  refine ⟨?_, fun hm => readReg_chk_crc16 hm, fun hm => readReg_chk_sum8 hm⟩
  · have hclr : exec .clr s = .next s.clearAcc := perform_legal _ (by simp [legal, h])
    simp only [runCommands, hclr]
    exact runCommands_upd bytes (s := s.clearAcc) h

/-- Settles O34: each index's value by definition, CHK by MODE, and the two general lemmas for the reserved indices and the ignored writes. -/
theorem registerMapReadsAndIgnoredWrites : Obligations.RegisterMapReadsAndIgnoredWrites := by
  unfold Obligations.RegisterMapReadsAndIgnoredWrites
  intro s
  refine ⟨rfl, rfl, rfl, rfl, ?_, rfl, rfl, rfl, rfl, rfl, rfl, fun _ h => readReg_reserved s h,
    fun _ v h0 h9 => busWrite_ignored v s h0 h9⟩
  cases h : s.mode with
  | crc16 => exact readReg_chk_crc16 h
  | sum8 => exact readReg_chk_sum8 h

/-- Settles O35: STATUS packs fields that do not overlap. -/
theorem statusFieldsByBitPosition : Obligations.StatusFieldsByBitPosition := by
  unfold Obligations.StatusFieldsByBitPosition
  intro p s
  obtain ⟨hmode, hframe, hsize, herr, hcode, htlen, hzero⟩ :=
    packedStatus_fields (BitVec.ofNat 2 (tLen p s.mode)) s.errCode s.err s.size.bit s.inFrame s.mode.bit
  refine ⟨?_, hframe, ?_, herr, hcode, htlen.trans (tLen_bits p s.mode), hzero⟩
  · rw [statusView, hmode]
    cases s.mode <;> decide
  · rw [statusView, hsize]
    cases s.size <;> decide

/-- Settles O37: the write sets TIDX, and TDATA is read from the TIDX the write left. -/
theorem tidxWriteSelectsTableEntry : Obligations.TidxWriteSelectsTableEntry := by
  unfold Obligations.TidxWriteSelectsTableEntry
  intro s v rest hh
  refine ⟨fun h => step_tidxWrite h hh, fun h => ?_⟩
  have hread := step_hostRead (s := { s with inputs := .read 10 :: rest, tidx := v.extractLsb' 0 8 }) rfl hh
  exact (run_succ 1 (step_tidxWrite h hh)).trans (run_succ 0 hread)

/-- Settles O43: both states are a `hardReset`, whose registers are those of R41 whatever state it is asserted in. -/
theorem resetSetsEveryRegister : Obligations.ResetSetsEveryRegister := by
  unfold Obligations.ResetSetsEveryRegister
  refine ⟨fun t ht => ?_, rfl, fun s rest h => ⟨_, step_cons h⟩⟩
  have hreset : ∃ s : State, t = s.hardReset := by
    obtain rfl | ⟨s, rest, hin, h⟩ := ht
    · exact ⟨State.reset, rfl⟩
    · rw [step_cons hin] at h
      exact ⟨_, (Host.Outcome.next.inj h).symm⟩
  obtain ⟨s, rfl⟩ := hreset
  have hstatus : statusView .one s.hardReset = 0x00000100 := by
    show statusView .one State.reset = 0x00000100
    decide
  exact ⟨rfl, rfl, rfl, rfl, rfl, rfl, rfl, rfl, rfl, rfl, rfl, rfl, rfl, rfl, hstatus⟩

end Sys2Proof
end

section
/-! PROOFS. The output port and the host bus as steps (spec/20_memory.md R51 to R63). -/

namespace Sys2Proof.Machine

/-! ## The host's accesses -/

/-- A word that spells a command executes as the command (R142). -/
theorem execute_of_decode {w : Word} {i : Instr} (s : State) (h : decode w = .cmd i) : execute w s = exec i s := by
  rw [execute, h]

/-- A table word the decoder reads as a command spells it. -/
theorem decode_tableWord {nbits w : Nat} {i : Instr} (h : decodeTableWord nbits w = some i) :
    decode (tableWord nbits w) = .cmd i := by
  unfold decodeTableWord at h
  split at h
  · next hd => rw [hd, Option.some.inj h]
  · cases h
  · cases h

/-- No register's value depends on what waits at the pins or on what the host has read (R51). -/
theorem readReg_outside (idx : BitVec 4) (s : State) (x : List Input) (d : List Word) :
    readReg idx { s with inputs := x, busData := d } = readReg idx s := rfl

/-- Bytes still held are a write in progress (R59). -/
theorem State.busy_eq_true (s : State) : s.busy = true ↔ s.held ≠ [] := by
  simp [State.busy]

/-- The port is valid with the oldest byte held as its data (R59). -/
theorem port_of_held_cons {s : State} {b : Byte} {more : List Byte} (h : s.held = b :: more) :
    portValid s = true ∧ portData s = some b :=
  ⟨(State.busy_eq_true s).mpr (by simp [h]), by simp [portData, h]⟩

/-- The pins set for the next CMD write show the same output stream. -/
@[simp] theorem State.withCmdWrite_out (w : Word) (s : State) : (s.withCmdWrite w).out = s.out := by
  simp [State.out]

/-! ## Transfers at the port -/

/-- A transfer as one update: at most one byte moves from the front of what is held to the end of what is taken (R59). -/
theorem State.takeByte_eq (s : State) :
    s.takeByte = { s with taken := s.taken ++ s.held.take 1, held := s.held.drop 1 } := by
  cases h : s.held with
  | nil =>
    rw [State.takeByte_nil h, List.take_nil, List.append_nil, List.drop_nil, ← h]
  | cons b more =>
    rw [State.takeByte_cons h]
    simp

/-- A transfer input's step (R59). -/
theorem step_take {s : State} {rest : List Input} (h : s.inputs = .take :: rest) :
    step s = .next (State.takeByte { s with inputs := rest }) :=
  step_cons h

/-- `k` transfers move the oldest `k` bytes held, or all of them where fewer are held, in order (R59). -/
theorem run_takes (k : Nat) {s : State} {rest : List Input} (h : s.inputs = List.replicate k .take ++ rest) :
    Host.Core.run core k s = .next { s with
      inputs := rest, taken := s.taken ++ s.held.take k, held := s.held.drop k } := by
  induction k generalizing s with
  | zero =>
    obtain rfl : s.inputs = rest := h
    simp [run_zero]
  | succ k ih =>
    rw [List.replicate_succ, List.cons_append] at h
    have hstep := step_take h
    have htake : s.held.take 1 ++ (s.held.drop 1).take k = s.held.take (1 + k) := List.take_add.symm
    rw [State.takeByte_eq] at hstep
    rw [run_succ k hstep, ih rfl, List.append_assoc, List.drop_drop, htake, Nat.add_comm 1 k]

/-! ## What a command does to the output stream -/

/-- The trailer is emitted after what is held (R58, R98). -/
theorem State.held_prefix_emitTrailer (p : Sum8TLen) (s : State) : s.held <+: (s.emitTrailer p).held := by
  unfold State.emitTrailer
  dsimp only
  split <;> simp

/-- END emits after what is held (R58, R120). -/
theorem State.held_prefix_padAndClose (p : Sum8TLen) (s : State) : s.held <+: (s.padAndClose p).held := by
  have hpad : s.held <+: (s.padBytes (padCount s)).held := by simp [State.padBytes_eq]
  exact hpad.trans (State.held_prefix_emitTrailer p _)

/-- A command's action emits at the end of what is held and removes nothing (R58). -/
theorem held_prefix_action (i : Instr) (s : State) : s.held <+: (action i s).held := by
  cases i with
  | trl => exact State.held_prefix_emitTrailer _ s
  | endFrame => exact State.held_prefix_padAndClose _ s
  | data b => obtain ⟨-, hb⟩ | ⟨-, hb⟩ := action_data_cases b s <;> simp [hb]
  | _ => simp [action]

/-- A command's action extends `OUT` at its end only (R58). -/
theorem out_prefix_action (i : Instr) (s : State) : s.out <+: (action i s).out := by
  obtain ⟨-, htaken, -⟩ := action_outside i s
  rw [State.out, State.out, htaken]
  exact (List.prefix_append_right_inj _).mpr (held_prefix_action i s)

/-- A word's execution takes no byte and leaves what waits at the pins (R55, R58). -/
theorem execute_outside {w : Word} {s t : State} (h : execute w s = .next t) :
    t.taken = s.taken ∧ t.inputs = s.inputs := by
  obtain ⟨-, rfl⟩ | ⟨op, -, rfl⟩ | ⟨i, -, hx⟩ := execute_cases h
  · simp
  · simp
  · obtain ⟨-, rfl⟩ | ⟨-, rfl⟩ := exec_cases hx
    · obtain ⟨-, htaken, hinputs, -⟩ := action_outside i s
      exact ⟨htaken, hinputs⟩
    · simp

/-- A CMD write followed by `k` transfers: the word's execution, then its oldest `k` bytes moved to the consumer (R52, R59). -/
theorem run_cmdWrite_takes {s t : State} {w : Word} (k : Nat) {rest : List Input} (hh : s.held = [])
    (hin : s.inputs = .write 0 w :: (List.replicate k .take ++ rest)) (h : execute w { s with inputs := rest } = .next t) :
    Host.Core.run core (k + 1) s = .next { t with taken := s.taken ++ t.held.take k, held := t.held.drop k } := by
  obtain ⟨htaken, hinputs⟩ : t.taken = s.taken ∧ t.inputs = rest := execute_outside h
  have hstep : step s = .next { t with inputs := List.replicate k .take ++ rest } :=
    (step_cmdWrite hin hh).trans (execute_setInputs (s := { s with inputs := rest }) _ h)
  rw [run_succ k hstep, run_takes k rfl, htaken, hinputs]

/-! ## What a step does to the output stream -/

/-- What the consumer has taken is extended at its end only, whatever the step (R58, R59). -/
theorem taken_prefix_step {s t : State} (h : step s = .next t) : s.taken <+: t.taken := by
  obtain ⟨-, rfl⟩ | ⟨idx, rest, -, -, rfl⟩ | ⟨idx, v, rest, -, -, hw⟩ | ⟨rest, -, rfl⟩ | ⟨rest, -, rfl⟩ := step_cases h
  · exact List.prefix_rfl
  · exact List.prefix_rfl
  · obtain ⟨-, hx⟩ | ⟨-, rfl⟩ | ⟨-, -, rfl⟩ := busWrite_cases hw
    · rw [(execute_outside hx).1]
    · exact List.prefix_rfl
    · exact List.prefix_rfl
  · exact List.prefix_rfl
  · simp [State.takeByte_eq]

/-- `OUT` is extended at its end only, but for a reset (R58, R162). -/
theorem out_prefix_step {s t : State} (h : step s = .next t) (hr : ∀ rest, s.inputs ≠ .assertReset :: rest) : s.out <+: t.out := by
  cases step_effect h with
  | quiet frame _ => rw [frame.out]
  | reset rest hin _ => exact absurd hin (hr rest)
  | raised e w rest _ heq => rw [heq, (raise_sameFrame e w s rest).out]
  | acted i w rest _ _ _ _ heq => exact heq ▸ out_prefix_action i { s with inputs := rest }

end Sys2Proof.Machine
end

section
/-! PROOFS. The host bus and the output port (spec/20_memory.md R51 to R63). -/

namespace Sys2Proof
open Machine

/-- Settles O41: the write's step leaves its bytes held, and the transfers move them from the front; from the last byte on they move nothing. -/
theorem writeCompletesWhenBytesAreTaken : Obligations.WriteCompletesWhenBytesAreTaken := by
  unfold Obligations.WriteCompletesWhenBytesAreTaken
  intro s t w k rest hh hin h
  have hrun := run_cmdWrite_takes k hh hin h
  refine ⟨fun _ => hrun, fun hk => ?_⟩
  rwa [List.take_of_length_le hk, List.drop_of_length_le hk] at hrun

/-- Settles O42: only a transfer moves bytes to the consumer, each to the end of what it has, and only the action of a command emits. -/
theorem outputOnlyGrows : Obligations.OutputOnlyGrows := by
  unfold Obligations.OutputOnlyGrows
  intro s t h
  refine ⟨?_, fun hr => ?_⟩
  · obtain ⟨more, hmore⟩ := taken_prefix_step h
    exact ⟨more, hmore.symm⟩
  · obtain ⟨more, hmore⟩ := out_prefix_step h hr
    exact ⟨more, hmore.symm⟩

/-- Settles O32: the write executes its word, and the word spells the command. -/
theorem stepRunsDecodedCommand : Obligations.StepRunsDecodedCommand := by
  unfold Obligations.StepRunsDecodedCommand
  intro s w rest i hin hh hd
  exact (step_cmdWrite hin hh).trans (execute_of_decode _ hd)

/-- Settles O33: `withFetchWord` completes the write before and puts the CMD write first, so it is `stepRunsDecodedCommand` from there. -/
theorem fetchedWordRunsNext : Obligations.FetchedWordRunsNext := by
  unfold Obligations.FetchedWordRunsNext
  intro s nbits w i h
  refine ⟨?_, State.withCmdWrite_out _ s⟩
  exact stepRunsDecodedCommand (s.withFetchWord nbits w) _ s.inputs i rfl rfl (decode_tableWord h)

/-- Settles O36: a read's step is `busRead`, which no register's value depends on, so the second read returns what the first did. -/
theorem readsHaveNoSideEffect : Obligations.ReadsHaveNoSideEffect := by
  unfold Obligations.ReadsHaveNoSideEffect
  intro s idx rest hh
  refine ⟨fun h => step_hostRead h hh, fun h => ?_⟩
  have hfirst := step_hostRead h hh
  have hsecond := step_hostRead (s := busRead idx { s with inputs := .read idx :: rest }) rfl hh
  rw [run_succ 1 hfirst, run_succ 0 hsecond, run_zero]
  simp [busRead, readReg_outside]

/-- Settles O38: bytes held are a write in progress, and both accesses ask for it first. -/
theorem accessDuringCommandIsRefused : Obligations.AccessDuringCommandIsRefused := by
  unfold Obligations.AccessDuringCommandIsRefused
  intro s idx v rest hh
  have hb : ({ s with inputs := rest } : State).busy = true := (State.busy_eq_true _).mpr hh
  refine ⟨fun h => ?_, fun h => ?_⟩
  · rw [step_cons h, onInput, if_pos hb]
  · rw [step_cons h, onInput, if_pos hb]

/-- Settles O40: `takeByte` by whether a byte is held, and it only moves the split of the output stream. -/
theorem consumerTakesOldestByte : Obligations.ConsumerTakesOldestByte := by
  unfold Obligations.ConsumerTakesOldestByte
  intro s rest hin
  have hstep := step_take hin
  refine ⟨fun b more hb => ?_, fun hn => ?_, fun t ht => ?_⟩
  · obtain ⟨hvalid, hdata⟩ := port_of_held_cons hb
    rw [State.takeByte_cons (s := { s with inputs := rest }) hb] at hstep
    exact ⟨hvalid, hdata, hstep⟩
  · rw [State.takeByte_nil (s := { s with inputs := rest }) hn] at hstep
    exact ⟨(State.busy_eq_false s).mpr hn, hstep⟩
  · obtain rfl : State.takeByte { s with inputs := rest } = t := Host.Outcome.next.inj (hstep.symm.trans ht)
    exact State.takeByte_out _

end Sys2Proof
end

section
/-! PROOFS. Command words by their fields (spec/30_encoding.md R70 to R76): matching, spelling, and the reserved bits. -/

namespace Sys2Proof

/-! ## A word by its fields RSVD, OP, F and IMM (R70) -/

/-- Words with the same field have the same bits there. -/
theorem bit_eq_of_field_eq {v w : Word} {lo len : Nat} (h : v.extractLsb' lo len = w.extractLsb' lo len) {j : Nat}
    (h₁ : lo ≤ j) (h₂ : j < lo + len) : v.getLsbD j = w.getLsbD j :=
  (bit_of_field h j h₁ h₂).trans (bit_of_field rfl j h₁ h₂).symm

/-- Two words are equal exactly when their four fields are. -/
theorem word_eq_iff_fields (v w : Word) :
    v = w ↔ v.extractLsb' 16 16 = w.extractLsb' 16 16 ∧ opField v = opField w ∧
      v.extractLsb' 8 4 = w.extractLsb' 8 4 ∧ immField v = immField w := by
  refine ⟨fun h => by simp [h], fun ⟨hrsvd, hop, hf, himm⟩ => BitVec.eq_of_getLsbD_eq fun j hj => ?_⟩
  obtain h | ⟨h₁, h₂⟩ | ⟨h₁, h₂⟩ | h : j < 8 ∨ (8 ≤ j ∧ j < 12) ∨ (12 ≤ j ∧ j < 16) ∨ 16 ≤ j := by omega
  · exact bit_eq_of_field_eq himm j.zero_le (by omega)
  · exact bit_eq_of_field_eq hf h₁ h₂
  · exact bit_eq_of_field_eq hop h₁ h₂
  · exact bit_eq_of_field_eq hrsvd h hj

/-- Every row fixes RSVD at 0 and OP at the row's value; of F and IMM it fixes at 0 the bits its mask holds (R72). -/
theorem match_iff_fields (op : Opcode) (w : Word) :
    w &&& op.mask = op.matchBits ↔ w.extractLsb' 16 16 = 0 ∧ opField w = opField op.matchBits ∧
      w.extractLsb' 8 4 &&& op.mask.extractLsb' 8 4 = 0 ∧ immField w &&& immField op.mask = 0 := by
  have hmask : op.mask.extractLsb' 16 16 = BitVec.allOnes 16 ∧ opField op.mask = BitVec.allOnes 4 := by
    cases op <;> decide
  have hmatch : op.matchBits.extractLsb' 16 16 = 0 ∧ op.matchBits.extractLsb' 8 4 = 0 ∧ immField op.matchBits = 0 := by
    cases op <;> decide
  obtain ⟨hm16, hm12⟩ := hmask
  obtain ⟨h16, h8, h0⟩ := hmatch
  rw [opField] at hm12
  rw [word_eq_iff_fields, h16, h8, h0]
  simp only [opField, immField, BitVec.extractLsb'_and, hm16, hm12, BitVec.and_allOnes]

/-! ## A row's words (R72) -/

/-- A row is looked up by the OP of its match. -/
theorem ofField_matchBits (op : Opcode) : Opcode.ofField (opField op.matchBits) = some op := by
  cases op <;> decide

/-- A word that matches a row has the row's opcode. -/
theorem ofField_of_match {op : Opcode} {w : Word} (h : w &&& op.mask = op.matchBits) :
    Opcode.ofField (opField w) = some op := by
  obtain ⟨-, hop, -⟩ := (match_iff_fields op w).mp h
  rw [hop, ofField_matchBits]

/-- A word spells a command of a row exactly when it matches the row. -/
theorem decode_opcode_iff_match (op : Opcode) (w : Word) :
    (∃ i, decode w = .cmd i ∧ i.opcode = op) ↔ w &&& op.mask = op.matchBits := by
  constructor
  · rintro ⟨i, hd, rfl⟩
    obtain ⟨op, -, hmatch, rfl⟩ := (decode_cmd_iff w i).mp hd
    rwa [command_opcode]
  · intro hmatch
    exact ⟨op.command w, (decode_cmd_iff w _).mpr ⟨op, ofField_of_match hmatch, hmatch, rfl⟩, command_opcode op w⟩

/-! ## The operands in their places (R71) -/

theorem immBits_immField (w : Word) : immBits (immField w) = w &&& 0x000000FF := by
  apply BitVec.eq_of_toNat_eq
  have hand : (w &&& 0x000000FF).toNat = w.toNat % 2 ^ 8 := Nat.and_two_pow_sub_one_eq_mod w.toNat 8
  rw [hand, immBits, immField, BitVec.toNat_setWidth, BitVec.extractLsb'_toNat, Nat.shiftRight_zero]
  omega

theorem modeBits_modeField (w : Word) : modeBits (modeField w) = w &&& 0x00000001 := by
  have hand : w &&& 0x00000001 = if w.getLsbD 0 then 0x00000001 else 0 := BitVec.and_twoPow w 0
  rw [hand, modeField]
  cases w.getLsbD 0 <;> rfl

theorem sizeBits_sizeField (w : Word) : sizeBits (sizeField w) = w &&& 0x00000100 := by
  have hand : w &&& 0x00000100 = if w.getLsbD 8 then 0x00000100 else 0 := BitVec.and_twoPow w 8
  rw [hand, sizeField]
  cases w.getLsbD 8 <;> rfl

/-- The command read from a word is encoded as the row's match with the word's operand bits, those outside the mask. -/
theorem encode_command (op : Opcode) (w : Word) : encode (op.command w) = op.matchBits ||| (w &&& ~~~op.mask) := by
  cases op with
  | nop | clr | trl | endFrame | abort | clrerr => simp [Opcode.command, encode, Opcode.mask, Opcode.matchBits]
  | upd | setfill | data => simp [Opcode.command, encode, Opcode.mask, Opcode.matchBits, immBits_immField]
  | setmode => simp [Opcode.command, encode, Opcode.mask, Opcode.matchBits, modeBits_modeField]
  | beginNext | beginAgain => simp [Opcode.command, encode, Opcode.mask, Opcode.matchBits, sizeBits_sizeField]
  | beginFrame =>
    have hoperands : ~~~Opcode.beginFrame.mask = 0x00000100 ||| 0x000000FF := by decide
    rw [hoperands, BitVec.and_or_distrib_left, ← sizeBits_sizeField, ← immBits_immField, ← BitVec.or_assoc]
    rfl

/-- A word that decodes to a command is the command's encoding (R76). -/
theorem eq_encode_of_decode {w : Word} {i : Instr} (h : decode w = .cmd i) : w = encode i := by
  obtain ⟨op, -, hmatch, rfl⟩ := (decode_cmd_iff w i).mp h
  calc w = w &&& (op.mask ||| ~~~op.mask) := by rw [BitVec.or_not_self, BitVec.and_allOnes]
    _ = op.matchBits ||| (w &&& ~~~op.mask) := by rw [BitVec.and_or_distrib_left, hmatch]
    _ = encode (op.command w) := (encode_command op w).symm

/-! ## The reserved bits (R75) -/

/-- A field inside a field is a field of the word. -/
theorem field_of_field (w : Word) (lo sub : Nat) {len sublen : Nat} (h : sub + sublen ≤ len) :
    (w.extractLsb' lo len).extractLsb' sub sublen = w.extractLsb' (lo + sub) sublen := by
  refine BitVec.eq_of_getLsbD_eq fun j hj => ?_
  have hin : sub + j < len := by omega
  simp [hj, hin, Nat.add_assoc]

/-- The bits of F above the size select are those that 0xE masks. -/
theorem highF_eq_zero_iff (w : Word) : w.extractLsb' 9 3 = 0#3 ↔ w.extractLsb' 8 4 &&& 0xE#4 = 0#4 := by
  rw [← field_of_field w 8 1 (len := 4) (by decide)]
  generalize w.extractLsb' 8 4 = f
  revert f; decide

/-- The bits of IMM above the mode bit are those that 0xFE masks. -/
theorem highImm_eq_zero_iff (w : Word) : w.extractLsb' 1 7 = 0#7 ↔ w.extractLsb' 0 8 &&& 0xFE#8 = 0#8 := by
  rw [← field_of_field w 0 1 (len := 8) (by decide)]
  generalize w.extractLsb' 0 8 = b
  revert b; decide

/-- With its OP assigned, a word has no reserved bit set exactly when it matches the row of its OP (R72, R75). -/
theorem reservedBitSet_eq_false_iff {w : Word} {op : Opcode} (h : Opcode.ofField (opField w) = some op) :
    Machine.reservedBitSet w = false ↔ w &&& op.mask = op.matchBits := by
  have hop : w.extractLsb' 12 4 = op.matchBits.extractLsb' 12 4 := ofField_value h
  have hF : w.extractLsb' 8 4 &&& 0xF#4 = w.extractLsb' 8 4 := BitVec.and_allOnes
  have hImm : w.extractLsb' 0 8 &&& 0xFF#8 = w.extractLsb' 0 8 := BitVec.and_allOnes
  rw [match_iff_fields]
  simp only [Machine.reservedBitSet, opField, immField, hop]
  cases op with
  | nop | clr | trl | endFrame | abort | clrerr => simp [Opcode.matchBits, Opcode.mask, hF, hImm, and_assoc]
  | upd | setfill | data => simp [Opcode.matchBits, Opcode.mask, hF]
  | setmode => simp [Opcode.matchBits, Opcode.mask, hF, highImm_eq_zero_iff, and_assoc]
  | beginFrame => simp [Opcode.matchBits, Opcode.mask, highF_eq_zero_iff]
  | beginNext | beginAgain => simp [Opcode.matchBits, Opcode.mask, hImm, highF_eq_zero_iff, and_assoc]

/-! ## The verdicts (R74) -/

/-- OP 0xD, 0xE and 0xF are illegal whatever the other bits are. -/
theorem decode_illegal {w : Word} (h : 0xD ≤ (opField w).toNat) : decode w = .illegal := by
  rw [decode, (ofField_none _).mpr h]

/-- Every OP below 0xD is assigned (R72). -/
theorem exists_ofField {f : BitVec 4} (h : f.toNat < 0xD) : ∃ op, Opcode.ofField f = some op :=
  Option.ne_none_iff_exists'.mp fun hnone => absurd ((ofField_none f).mp hnone) (Nat.not_le.mpr h)

/-- A word of an assigned OP that does not match its row is reserved. -/
theorem decode_reserved {w : Word} {op : Opcode} (hop : Opcode.ofField (opField w) = some op)
    (h : w &&& op.mask ≠ op.matchBits) : decode w = .reserved op := by
  simp [decode, hop, h]

/-- A word with an assigned OP and a reserved bit set is reserved. -/
theorem decode_of_reservedBitSet {w : Word} (hop : (opField w).toNat < 0xD) (h : Machine.reservedBitSet w = true) :
    ∃ op, decode w = .reserved op := by
  obtain ⟨op, hf⟩ := exists_ofField hop
  refine ⟨op, decode_reserved hf fun hmatch => ?_⟩
  rw [(reservedBitSet_eq_false_iff hf).mpr hmatch] at h
  cases h

/-- A word with an assigned OP and no reserved bit set spells a command. -/
theorem decode_of_reservedBitClear {w : Word} (hop : (opField w).toNat < 0xD) (h : Machine.reservedBitSet w = false) :
    ∃ i, decode w = .cmd i := by
  obtain ⟨op, hf⟩ := exists_ofField hop
  exact ⟨op.command w, (decode_cmd_iff w _).mpr ⟨op, hf, (reservedBitSet_eq_false_iff hf).mp h, rfl⟩⟩

end Sys2Proof
end

section
/-! PROOFS. The host accesses of an assembler line (spec/30_encoding.md R77 to R79). -/

namespace Sys2Proof.Machine

/-! ## What a line assembles to -/

/-- An assembly error has no encoding (R77). -/
theorem assembleLine_of_not_wf {l : SourceLine} (h : l.wf = false) : assembleLine l = none := by
  simp [assembleLine, h]

/-- The lines that stand for commands: those of R77 but `.word`, and those of R79. -/
def isCommandLine : SourceLine → Bool
  | .word _ | .wr _ _ | .rd _ => false
  | _ => true

/-- A command line writes the words of its commands to CMD, in order (R78). -/
theorem assembleLine_commands (l : SourceLine) (hc : isCommandLine l = true) (h : l.wf = true) :
    assembleLine l = some ((lineCommands l).map fun i => cmdWrite (encode i)) := by
  cases l with
  | word w | wr idx v | rd idx => cases hc
  | _ => exact if_pos h

/-- `.word` writes its word to CMD (R77). -/
theorem assembleLine_word (w : Word) : assembleLine (.word w.toNat) = some [.write 0 w] := by
  have hwf : (SourceLine.word w.toNat).wf = true := decide_eq_true w.isLt
  simp [assembleLine, hwf, cmdWrite]

/-- `WR` writes the register of its index (R78). -/
theorem assembleLine_wr (idx : BitVec 4) (v : Word) : assembleLine (.wr idx.toNat v.toNat) = some [.write idx v] := by
  have hwf : (SourceLine.wr idx.toNat v.toNat).wf = true := by
    simp [SourceLine.wf, indexOk, wordOk, idx.isLt, v.isLt]
  simp [assembleLine, hwf]

/-- `RD` reads the register of its index (R78). -/
theorem assembleLine_rd (idx : BitVec 4) : assembleLine (.rd idx.toNat) = some [.read idx] := by
  have hwf : (SourceLine.rd idx.toNat).wf = true := decide_eq_true idx.isLt
  simp [assembleLine, hwf]

/-! ## The checks on the operands -/

theorem byteOk_iff {b : Nat} : byteOk b = true ↔ b ≤ 0xFF := decide_eq_true_iff

theorem byteOk_eq_false {b : Nat} (h : 0xFF < b) : byteOk b = false := decide_eq_false (Nat.not_le.mpr h)

theorem sizeOk_eq_false {size : Nat} (h128 : size ≠ 128) (h1024 : size ≠ 1024) : sizeOk size = false := by
  simp [sizeOk, h128, h1024]

theorem all_byteOk {bytes : List Nat} (h : ∀ b ∈ bytes, b ≤ 0xFF) : bytes.all byteOk = true :=
  List.all_eq_true.mpr fun b hb => byteOk_iff.mpr (h b hb)

theorem all_byteOk_eq_false {bytes : List Nat} (h : ∃ b ∈ bytes, 0xFF < b) : bytes.all byteOk = false := by
  obtain ⟨b, hb, hbig⟩ := h
  exact List.all_eq_false.mpr ⟨b, hb, by simp [byteOk_eq_false hbig]⟩

/-! ## The words of the commands with a byte operand (R71, R77) -/

/-- A byte operand is added to a word whose low byte is 0. -/
theorem or_immBits_byteOf (k : Nat) {n : Nat} (h : n ≤ 0xFF) :
    BitVec.ofNat 32 (0x100 * k) ||| immBits (byteOf n) = BitVec.ofNat 32 (0x100 * k + n) := by
  have hadd : 0x100 * k + n = 0x100 * k ||| n := Nat.two_pow_add_eq_or_of_lt (i := 8) (by omega) k
  have himm : immBits (byteOf n) = BitVec.ofNat 32 n := by
    apply BitVec.eq_of_toNat_eq
    simp only [immBits, byteOf, BitVec.toNat_setWidth, BitVec.toNat_ofNat]
    omega
  rw [himm, hadd, BitVec.ofNat_or]

theorem encode_upd_byteOf {n : Nat} (h : n ≤ 0xFF) : encode (.upd (byteOf n)) = BitVec.ofNat 32 (0x2000 + n) :=
  or_immBits_byteOf 0x20 h

theorem encode_setfill_byteOf {n : Nat} (h : n ≤ 0xFF) : encode (.setfill (byteOf n)) = BitVec.ofNat 32 (0x5000 + n) :=
  or_immBits_byteOf 0x50 h

theorem encode_beginFrame_128_byteOf {n : Nat} (h : n ≤ 0xFF) :
    encode (.beginFrame .s128 (byteOf n)) = BitVec.ofNat 32 (0x6000 + n) :=
  or_immBits_byteOf 0x60 h

theorem encode_beginFrame_1024_byteOf {n : Nat} (h : n ≤ 0xFF) :
    encode (.beginFrame .s1024 (byteOf n)) = BitVec.ofNat 32 (0x6100 + n) :=
  or_immBits_byteOf 0x61 h

theorem encode_data_byteOf {n : Nat} (h : n ≤ 0xFF) : encode (.data (byteOf n)) = BitVec.ofNat 32 (0x9000 + n) :=
  or_immBits_byteOf 0x90 h

/-! ## The lines with one number (R77) -/

theorem assembleLine_setfill {n : Nat} (h : n ≤ 0xFF) :
    assembleLine (.setfill n) = some [.write 0 (BitVec.ofNat 32 (0x5000 + n))] := by
  rw [assembleLine_commands (.setfill n) rfl (byteOk_iff.mpr h), ← encode_setfill_byteOf h]
  rfl

theorem assembleLine_beginFrame_128 {n : Nat} (h : n ≤ 0xFF) :
    assembleLine (.beginFrame 128 n) = some [.write 0 (BitVec.ofNat 32 (0x6000 + n))] := by
  rw [assembleLine_commands (.beginFrame 128 n) rfl (byteOk_iff.mpr h), ← encode_beginFrame_128_byteOf h]
  rfl

theorem assembleLine_beginFrame_1024 {n : Nat} (h : n ≤ 0xFF) :
    assembleLine (.beginFrame 1024 n) = some [.write 0 (BitVec.ofNat 32 (0x6100 + n))] := by
  rw [assembleLine_commands (.beginFrame 1024 n) rfl (byteOk_iff.mpr h), ← encode_beginFrame_1024_byteOf h]
  rfl

/-! ## The lines with bytes (R77, R79) -/

/-- The UPD commands of some bytes are written as one word a byte. -/
theorem updWrites {bytes : List Nat} (h : ∀ b ∈ bytes, b ≤ 0xFF) :
    (lineCommands (.upd bytes)).map (fun i => cmdWrite (encode i)) =
      bytes.map fun b => .write 0 (BitVec.ofNat 32 (0x2000 + b)) := by
  rw [lineCommands, List.map_map]
  exact List.map_congr_left fun b hb => congrArg cmdWrite (encode_upd_byteOf (h b hb))

/-- The DATA commands of some bytes are written as one word a byte. -/
theorem dataWrites {bytes : List Nat} (h : ∀ b ∈ bytes, b ≤ 0xFF) :
    (lineCommands (.data bytes)).map (fun i => cmdWrite (encode i)) =
      bytes.map fun b => .write 0 (BitVec.ofNat 32 (0x9000 + b)) := by
  rw [lineCommands, List.map_map]
  exact List.map_congr_left fun b hb => congrArg cmdWrite (encode_data_byteOf (h b hb))

theorem assembleLine_upd {bytes : List Nat} (h : ∀ b ∈ bytes, b ≤ 0xFF) :
    assembleLine (.upd bytes) = some (bytes.map fun b => .write 0 (BitVec.ofNat 32 (0x2000 + b))) :=
  (assembleLine_commands (.upd bytes) rfl (all_byteOk h)).trans (congrArg some (updWrites h))

theorem assembleLine_data {bytes : List Nat} (h : ∀ b ∈ bytes, b ≤ 0xFF) :
    assembleLine (.data bytes) = some (bytes.map fun b => .write 0 (BitVec.ofNat 32 (0x9000 + b))) :=
  (assembleLine_commands (.data bytes) rfl (all_byteOk h)).trans (congrArg some (dataWrites h))

/-- `CKSUM` writes CLR and what `UPD` of its bytes writes (R79). -/
theorem assembleLine_cksum {bytes : List Nat} (h : ∀ b ∈ bytes, b ≤ 0xFF) :
    assembleLine (.cksum bytes) =
      some (.write 0 0x00001000 :: bytes.map fun b => .write 0 (BitVec.ofNat 32 (0x2000 + b))) := by
  rw [assembleLine_commands (.cksum bytes) rfl (all_byteOk h), ← updWrites h]
  rfl

/-- `FRAME` writes what BEGIN, DATA of its bytes and END write (R79). -/
theorem assembleLine_frame {size n : Nat} {bytes : List Nat} (h : (SourceLine.frame size n bytes).wf = true) :
    ∃ opening payload, assembleLine (.beginFrame size n) = some opening ∧ assembleLine (.data bytes) = some payload ∧
      assembleLine (.frame size n bytes) = some (opening ++ payload ++ [.write 0 0x0000A000]) := by
  obtain ⟨hbegin, hdata⟩ : (SourceLine.beginFrame size n).wf = true ∧ (SourceLine.data bytes).wf = true :=
    Bool.and_eq_true_iff.mp h
  refine ⟨_, _, assembleLine_commands _ rfl hbegin, assembleLine_commands _ rfl hdata, ?_⟩
  have hcommands : lineCommands (.frame size n bytes) =
      lineCommands (.beginFrame size n) ++ lineCommands (.data bytes) ++ [.endFrame] := rfl
  rw [assembleLine_commands _ rfl h, hcommands, List.map_append, List.map_append]
  rfl

/-- `NAMEBLK` writes SETFILL 0x00 and BEGIN 128, 0, then what DATA of the name writes, then END and SETFILL 0x1A (R79). -/
theorem assembleLine_nameblk {name : List Nat} (h : (SourceLine.nameblk name).wf = true) :
    ∃ payload, assembleLine (.data name) = some payload ∧ assembleLine (.nameblk name) =
      some ([.write 0 0x00005000, .write 0 0x00006000] ++ payload ++ [.write 0 0x0000A000, .write 0 0x0000501A]) := by
  have hdata : (SourceLine.data name).wf = true := h
  refine ⟨_, assembleLine_commands _ rfl hdata, ?_⟩
  have hcommands : lineCommands (.nameblk name) =
      [.setfill 0x00, .beginFrame .s128 0] ++ lineCommands (.data name) ++ [.endFrame, .setfill 0x1A] := rfl
  rw [assembleLine_commands _ rfl h, hcommands, List.map_append, List.map_append]
  rfl

/-! ## The assembly errors (R77) -/

/-- A size other than 128 and 1024 is an error in every line that has one. -/
theorem assembleLine_size_error {size : Nat} (n : Nat) (bytes : List Nat) (h128 : size ≠ 128) (h1024 : size ≠ 1024) :
    assembleLine (.beginFrame size n) = none ∧ assembleLine (.beginNext size) = none ∧
    assembleLine (.beginAgain size) = none ∧ assembleLine (.frame size n bytes) = none := by
  have hsize := sizeOk_eq_false h128 h1024
  refine ⟨?_, ?_, ?_, ?_⟩ <;> exact assembleLine_of_not_wf (by simp [SourceLine.wf, hsize])

/-- A fill byte or a block number above 0xFF is an error. -/
theorem assembleLine_number_error (size : Nat) {n : Nat} (bytes : List Nat) (h : 0xFF < n) :
    assembleLine (.setfill n) = none ∧ assembleLine (.beginFrame size n) = none ∧
    assembleLine (.frame size n bytes) = none := by
  have hbyte := byteOk_eq_false h
  refine ⟨?_, ?_, ?_⟩ <;> exact assembleLine_of_not_wf (by simp [SourceLine.wf, hbyte])

/-- One byte above 0xFF makes its whole line an error. -/
theorem assembleLine_bytes_error (size n : Nat) {bytes : List Nat} (h : ∃ b ∈ bytes, 0xFF < b) :
    assembleLine (.upd bytes) = none ∧ assembleLine (.data bytes) = none ∧ assembleLine (.cksum bytes) = none ∧
    assembleLine (.frame size n bytes) = none ∧ assembleLine (.nameblk bytes) = none := by
  have hbytes := all_byteOk_eq_false h
  have hframe : (SourceLine.frame size n bytes).wf = false := by rw [SourceLine.wf, hbytes, Bool.and_false]
  exact ⟨assembleLine_of_not_wf hbytes, assembleLine_of_not_wf hbytes, assembleLine_of_not_wf hbytes,
    assembleLine_of_not_wf hframe, assembleLine_of_not_wf hbytes⟩

end Sys2Proof.Machine
end

section
/-! PROOFS. The encoding and the assembler (spec/30_encoding.md R70 to R79). -/

namespace Sys2Proof
open Machine

/-- Settles O2: `decode_encode`, the operands command by command. -/
theorem decodeReadsBackEncode : Obligations.DecodeReadsBackEncode := by
  unfold Obligations.DecodeReadsBackEncode
  exact decode_encode

/-- Settles O3: the row fixes the bits under its mask, and the operands are all the others. -/
theorem decodedWordIsItsOnlySpelling : Obligations.DecodedWordIsItsOnlySpelling := by
  unfold Obligations.DecodedWordIsItsOnlySpelling
  intro w i h
  exact eq_encode_of_decode h

/-- Settles O4: the numbers written out are each row's match and mask, so it is `decode_opcode_iff_match` of the row's opcode. -/
theorem wordsMatchOpcodeMap : Obligations.WordsMatchOpcodeMap := by
  unfold Obligations.WordsMatchOpcodeMap
  intro row hrow w
  have hcolumns : row.2 = (row.1.matchBits, row.1.mask) := by revert row; decide
  rw [hcolumns]
  exact decode_opcode_iff_match row.1 w

/-- Settles O5: OP decides between illegal and assigned, the reserved bits between reserved and a command; an error is its record. -/
theorem illegalAndReservedWordsRaise : Obligations.IllegalAndReservedWordsRaise := by
  unfold Obligations.IllegalAndReservedWordsRaise
  intro w s
  refine ⟨fun hop => ?_, fun hop hrsvd => ?_, fun hop hclear => ?_⟩
  · rw [execute, decode_illegal hop]
    rfl
  · obtain ⟨op, hd⟩ := decode_of_reservedBitSet hop hrsvd
    rw [execute, hd]
    rfl
  · obtain ⟨i, hd⟩ := decode_of_reservedBitClear hop hclear
    exact ⟨i, hd, execute_of_decode s hd⟩

/-- Settles O51: a line by its commands and their words, and the assembly errors by the check that refuses them. -/
theorem linesAssembleToTheirWords : Obligations.LinesAssembleToTheirWords := by
  unfold Obligations.LinesAssembleToTheirWords
  refine ⟨by decide, fun n h => ?_, fun bytes h => ⟨assembleLine_upd h, assembleLine_data h, assembleLine_cksum h⟩,
    fun _ _ _ h => assembleLine_frame h, fun _ h => assembleLine_nameblk h, assembleLine_word, assembleLine_wr,
    assembleLine_rd, fun _ n bytes h128 h1024 => assembleLine_size_error n bytes h128 h1024,
    fun size _ bytes h => assembleLine_number_error size bytes h,
    fun size n _ h => assembleLine_bytes_error size n h, fun _ h => assembleLine_of_not_wf h⟩
  have hbytes : ∀ b ∈ [n], b ≤ 0xFF := List.forall_mem_singleton.mpr h
  exact ⟨assembleLine_upd hbytes, assembleLine_setfill h, assembleLine_beginFrame_128 h,
    assembleLine_beginFrame_1024 h, assembleLine_data hbytes⟩

/-- Settles O1: the sixteen words are closed, and decoding each is a computation. -/
theorem knownWordsDecode : Obligations.KnownWordsDecode := by
  unfold Obligations.KnownWordsDecode
  decide

end Sys2Proof
end

section
/-! PROOFS. A command in each frame state and the words of its row (spec/30_encoding.md R72 to R76, spec/60_exceptions.md R141 to R143). -/

namespace Sys2Proof.Machine

/-! ## A command by its legality (R142) -/

/-- Where a command is legal it does its action. -/
theorem exec_of_legal {i : Instr} {s : State} (h : legal i s.inFrame = true) : exec i s = .next (action i s) := by
  rw [exec_eq_perform, perform_legal _ h]

/-- Where a command is not legal its word is recorded with E_STATE. -/
theorem exec_of_not_legal {i : Instr} {s : State} (h : legal i s.inFrame = false) :
    exec i s = .next (s.recorded 3 (encode i)) := by
  rw [exec_eq_perform, perform_illegal _ h]
  rfl

/-! ## The words of a row -/

/-- A command's word executes as the command (R76). -/
theorem execute_encode (i : Instr) (s : State) : execute (encode i) s = exec i s :=
  execute_of_decode s (decode_encode i)

/-- A word with a row's OP that does not match the row is recorded with E_RSVD (R74, R75). -/
theorem execute_of_mismatch (op : Opcode) {w : Word} (s : State) (hop : w.extractLsb' 12 4 = opField op.matchBits)
    (h : w &&& op.mask ≠ op.matchBits) : execute w s = .next (s.recorded 2 w) := by
  have hfield : Opcode.ofField (opField w) = some op := by rw [opField, hop, ofField_matchBits]
  rw [execute, decode_reserved hfield h]
  rfl

/-- A row without operands has one word; every other word with its OP is recorded with E_RSVD. -/
theorem execute_other_word (op : Opcode) {w : Word} (s : State) (hmask : op.mask = BitVec.allOnes 32)
    (hop : w.extractLsb' 12 4 = opField op.matchBits) (h : w ≠ op.matchBits) : execute w s = .next (s.recorded 2 w) :=
  execute_of_mismatch op s hop (by rwa [hmask, BitVec.and_allOnes])

/-- A word with a row's OP that differs from the row's match in a field under the mask is recorded with E_RSVD. -/
theorem execute_reserved_field (op : Opcode) {w : Word} (lo len : Nat) (s : State)
    (hmask : op.mask.extractLsb' lo len = BitVec.allOnes len) (hop : w.extractLsb' 12 4 = opField op.matchBits)
    (h : w.extractLsb' lo len ≠ op.matchBits.extractLsb' lo len) : execute w s = .next (s.recorded 2 w) := by
  refine execute_of_mismatch op s hop fun hmatch => h ?_
  rw [← hmatch, BitVec.extractLsb'_and, hmask, BitVec.and_allOnes]

end Sys2Proof.Machine
end

section
/-! PROOFS. The checksum engine: the ROM, the CRC step, the sum and the trailer (spec/40_checksum.md R92 to R99). -/

namespace Sys2Proof.Machine

/-! ## The rounds of the table rule are linear (R92, R93) -/

theorem crcRound_xor (x y : Half) : crcRound (x ^^^ y) = crcRound x ^^^ crcRound y := by
  unfold crcRound
  rw [BitVec.getLsbD_xor, BitVec.shiftLeft_xor_distrib]
  cases x.getLsbD 15 <;> cases y.getLsbD 15
  case false.false => rfl
  case false.true => exact BitVec.xor_assoc _ _ _
  case true.false =>
    show (x <<< 1 ^^^ y <<< 1) ^^^ 0x1021 = (x <<< 1 ^^^ 0x1021) ^^^ y <<< 1
    ac_rfl
  case true.true => simp [BitVec.xor_assoc]

theorem crcRounds_xor (k : Nat) (x y : Half) : crcRounds k (x ^^^ y) = crcRounds k x ^^^ crcRounds k y := by
  induction k generalizing x y with
  | zero => rfl
  | succ k ih => rw [crcRounds, crcRound_xor, ih]; rfl

theorem crcTable_xor (a c : Byte) : crcTable (a ^^^ c) = crcTable a ^^^ crcTable c := by
  rw [crcTable, BitVec.setWidth_xor, BitVec.shiftLeft_xor_distrib, crcRounds_xor]
  rfl

/-- The ROM holds the entry listed at every index (R93). -/
theorem romListing_getElem? : ∀ i : Byte, romListing[i.toNat]? = some (crcTable i) := by decide

/-- The listing has four parts of 64 entries. -/
theorem romListing_length : romListing.length = 256 := by
  simp only [romListing, List.length_append]
  rfl

/-! ## The bitwise form of the CRC step (R99) -/

theorem crcRounds_eq_iterate (k : Nat) (e : Half) : crcRounds k e = crcRound^[k] e := by
  induction k generalizing e with
  | zero => rfl
  | succ k ih => rw [crcRounds, ih, Function.iterate_succ_apply]

/-- As long as no 1 is shifted out, the rounds are a shift. -/
theorem crcRounds_eq_shiftLeft {k : Nat} {e : Half} (h : e.toNat * 2 ^ k < 2 ^ 16) : crcRounds k e = e <<< k := by
  induction k generalizing e with
  | zero => simp [crcRounds]
  | succ k ih =>
    have hlow : e.toNat * 2 < 2 ^ 16 :=
      (Nat.mul_le_mul_left _ (Nat.le_self_pow k.succ_ne_zero 2)).trans_lt h
    have hbit : e.getLsbD 15 = false := Nat.testBit_lt_two_pow (by omega)
    have hround : crcRound e = e <<< 1 := by rw [crcRound, hbit]; rfl
    have hdouble : (e <<< 1).toNat = e.toNat * 2 := by
      rw [BitVec.toNat_shiftLeft, Nat.shiftLeft_eq, Nat.mod_eq_of_lt hlow]
    have hrest : (e <<< 1).toNat * 2 ^ k < 2 ^ 16 := by rwa [hdouble, Nat.mul_assoc, ← Nat.pow_succ']
    rw [crcRounds, hround, ih hrest, ← BitVec.shiftLeft_add, Nat.add_comm]

/-- A CRC is its high byte in place and its low byte. -/
theorem half_eq_bytes (c : Half) :
    c = ((c.extractLsb' 8 8).setWidth 16 <<< 8) ^^^ (c.extractLsb' 0 8).setWidth 16 := by
  refine BitVec.eq_of_getLsbD_eq fun j hj => ?_
  by_cases hlow : j < 8
  · simp [hlow, hj]
  · have hhigh : 8 + (j - 8) = j := by omega
    have hin : j - 8 < 8 := by omega
    simp [hlow, hj, hhigh, hin]

/-- A shift by eight keeps the low byte only. -/
theorem lowByte_shiftLeft (c : Half) : (c.extractLsb' 0 8).setWidth 16 <<< 8 = c <<< 8 := by
  refine BitVec.eq_of_getLsbD_eq fun j hj => ?_
  have hin : j - 8 < 8 ∧ j - 8 < 16 := by omega
  simp [hin]

/-- The eight rounds work on the high byte and the byte folded in as the table does, and shift the low byte into the high place. -/
theorem crcStep_eq_crcRounds (c : Half) (b : Byte) : crcStep c b = crcRounds 8 (c ^^^ (b.setWidth 16 <<< 8)) := by
  have hlow : crcRounds 8 ((c.extractLsb' 0 8).setWidth 16) = c <<< 8 := by
    rw [crcRounds_eq_shiftLeft, lowByte_shiftLeft]
    have := (c.extractLsb' 0 8).isLt
    rw [BitVec.toNat_setWidth]
    omega
  have hsplit : (c.extractLsb' 8 8 ^^^ b).setWidth 16 <<< 8 ^^^ (c.extractLsb' 0 8).setWidth 16 =
      c ^^^ (b.setWidth 16 <<< 8) := by
    rw [BitVec.setWidth_xor, BitVec.shiftLeft_xor_distrib, BitVec.xor_assoc, BitVec.xor_comm (b.setWidth 16 <<< 8),
      ← BitVec.xor_assoc, ← half_eq_bytes]
  calc crcStep c b
      = crcTable (c.extractLsb' 8 8 ^^^ b) ^^^ crcRounds 8 ((c.extractLsb' 0 8).setWidth 16) := by
        rw [crcStep, hlow, BitVec.xor_comm]
    _ = crcRounds 8 ((c.extractLsb' 8 8 ^^^ b).setWidth 16 <<< 8 ^^^ (c.extractLsb' 0 8).setWidth 16) := by
        rw [crcTable, crcRounds_xor]
    _ = crcRounds 8 (c ^^^ (b.setWidth 16 <<< 8)) := by rw [hsplit]

/-! ## The sum (R95, R96) -/

/-- Folding bytes changes the accumulators and nothing else. -/
theorem foldl_acc (bytes : List Byte) (s : State) :
    bytes.foldl (fun s b => s.acc b) s = { s with crc := crcFrom s.crc bytes, sum := sumFrom s.sum bytes } := by
  induction bytes generalizing s with
  | nil => rfl
  | cons b bytes ih => exact ih (s.acc b)

theorem sumFrom_toNat (a : Byte) (bytes : List Byte) :
    (sumFrom a bytes).toNat = (a.toNat + (bytes.map BitVec.toNat).sum) % 256 := by
  induction bytes generalizing a with
  | nil => exact (Nat.mod_eq_of_lt a.isLt).symm
  | cons b bytes ih =>
    have hcons : sumFrom a (b :: bytes) = sumFrom (a + b) bytes := rfl
    rw [hcons, ih, BitVec.toNat_add, List.map_cons, List.sum_cons]
    omega

/-! ## The trailer (R98) -/

/-- Two bytes emitted one after the other. -/
theorem State.emit_emit (a b : Byte) (s : State) : (s.emit a).emit b = { s with held := s.held ++ [a, b] } := by
  simp [State.emit]

/-- The two trailer bytes in Sum8 mode with `P_SUM8_TLEN = 2` (log entry 7). -/
theorem State.emitTrailer_sum8_two {s : State} (h : s.mode = .sum8) : s.emitTrailer .two = (s.emit 0x00).emit s.sum := by
  have hhigh : (s.sum.setWidth 16).extractLsb' 8 8 = 0x00 := by
    generalize s.sum = a
    revert a; decide
  have hlow : (s.sum.setWidth 16).extractLsb' 0 8 = s.sum := by
    generalize s.sum = a
    revert a; decide
  simp [State.emitTrailer, chk, tLen, h, Sum8TLen.toNat, hhigh, hlow]

end Sys2Proof.Machine
end

section
/-! PROOFS. The checksum engine and the commands that drive it alone (spec/40_checksum.md R92 to R103). -/

namespace Sys2Proof
open Machine

/-- Settles O7: CLR is its action where it is legal, the idle state, and 0x00001000 is the one word of its row. -/
theorem clrClearsAccumulators : Obligations.ClrClearsAccumulators := by
  unfold Obligations.ClrClearsAccumulators
  intro s
  exact ⟨fun hidle => exec_of_legal (by rw [hidle]; rfl), fun hframe => exec_of_not_legal (by rw [hframe]; rfl),
    execute_encode .clr s, fun w hop hw => execute_other_word .clr s rfl hop hw⟩

/-- Settles O8: UPD is `State.acc` in the idle state; its row fixes w[31:16] and w[11:8] at 0 and no bit of the byte. -/
theorem updFoldsOneByte : Obligations.UpdFoldsOneByte := by
  unfold Obligations.UpdFoldsOneByte
  intro s b
  refine ⟨fun hidle => exec_of_legal (by rw [hidle]; rfl), fun hframe => exec_of_not_legal (by rw [hframe]; rfl),
    execute_encode (.upd b) s, fun w hop hw => ?_⟩
  obtain hrsvd | hF := hw
  · exact execute_reserved_field .upd 16 16 s (by decide) hop hrsvd
  · exact execute_reserved_field .upd 8 4 s (by decide) hop hF

/-- Settles O23: `Chk()` is the CRC, or SUM under a zero high byte, and goes out high byte first where the trailer has two bytes. -/
theorem trailerIsBigEndian : Obligations.TrailerIsBigEndian := by
  unfold Obligations.TrailerIsBigEndian
  intro s
  exact ⟨fun p h => (State.emitTrailer_crc16 p h).trans (State.emit_emit _ _ s), State.emitTrailer_sum8,
    fun h => (State.emitTrailer_sum8_two h).trans (State.emit_emit _ _ s)⟩

/-- Settles O9: TRL's action is `EmitTrailer()` of this hardware, whose bytes are those of `trailerIsBigEndian`. -/
theorem trlEmitsTrailer : Obligations.TrlEmitsTrailer := by
  unfold Obligations.TrlEmitsTrailer
  intro s
  obtain ⟨hcrc16, hsum8, -⟩ := trailerIsBigEndian s
  have hacts (hidle : s.inFrame = false) : exec .trl s = .next (s.emitTrailer .one) :=
    exec_of_legal (by rw [hidle]; rfl)
  refine ⟨fun hidle hmode => ?_, fun hidle hmode => ?_, fun hframe => exec_of_not_legal (by rw [hframe]; rfl),
    execute_encode .trl s, fun w hop hw => execute_other_word .trl s rfl hop hw⟩
  · rw [hacts hidle, hcrc16 .one hmode]
  · rw [hacts hidle, hsum8 hmode]

/-- Settles O10: SETMODE writes MODE in the idle state; its row fixes w[31:16] and w[11:1] at 0. -/
theorem setmodeSelectsChecksum : Obligations.SetmodeSelectsChecksum := by
  unfold Obligations.SetmodeSelectsChecksum
  intro s m
  refine ⟨fun hidle => exec_of_legal (by rw [hidle]; rfl),
    fun hframe => ⟨exec_of_not_legal (by rw [hframe]; rfl), exec_of_not_legal (by rw [hframe]; rfl)⟩,
    execute_encode (.setmode .sum8) s, execute_encode (.setmode .crc16) s, fun w hop hw => ?_⟩
  obtain hrsvd | hlow := hw
  · exact execute_reserved_field .setmode 16 16 s (by decide) hop hrsvd
  · exact execute_reserved_field .setmode 1 11 s (by decide) hop hlow

/-- Settles O19: the 256 entries are computed and compared, and the generation rule is linear round by round. -/
theorem romIsListedTableAndLinear : Obligations.RomIsListedTableAndLinear := by
  unfold Obligations.RomIsListedTableAndLinear
  exact ⟨romListing_getElem?, romListing_length, crcTable_xor⟩

/-- Settles O20: the rounds are the iterated shift-and-XOR rule, and the table step is eight of them. -/
theorem crcStepIsBitwiseForm : Obligations.CrcStepIsBitwiseForm := by
  unfold Obligations.CrcStepIsBitwiseForm
  intro c b
  exact (crcStep_eq_crcRounds c b).trans (crcRounds_eq_iterate 8 _)

/-- Settles O21: SUM is the total modulo 256 (`sumFrom_toNat`), and a total does not depend on the order. -/
theorem sumIsTotalModulo256 : Obligations.SumIsTotalModulo256 := by
  unfold Obligations.SumIsTotalModulo256
  intro s bytes h0
  have hzero : s.sum.toNat = 0 := by rw [h0]; rfl
  have htotal (l : List Byte) : (l.foldl (fun s b => s.acc b) s).sum.toNat = (l.map BitVec.toNat).sum % 256 := by
    rw [foldl_acc, sumFrom_toNat, hzero, Nat.zero_add]
  refine ⟨htotal bytes, fun others hperm => BitVec.eq_of_toNat_eq ?_⟩
  rw [htotal, htotal, (hperm.map BitVec.toNat).sum_eq]

end Sys2Proof
end

section
/-! PROOFS. The frame commands: what opens a frame, what its DATA commands and END leave, and the bytes of the frame (spec/41_frame.md R110 to R125). -/

namespace Sys2Proof.Machine

/-! ## Opening a frame (R115 to R118) -/

/-- The opening of a frame as one update (R115). -/
theorem State.openFrame_eq (z : PSize) (n : Byte) (s : State) :
    s.openFrame z n = { s with
      crc := 0x0000, sum := 0x00, blk := n, size := z, cnt := 0, inFrame := true,
      held := s.held ++ [headerByte z, n, n ^^^ 0xFF] } := by
  simp [State.openFrame, State.emit, State.clearAcc, blockComplement]

/-- Idle, a BEGIN-family command opens a frame of the size and number it resolves to. -/
theorem exec_of_opensAs {i : Instr} {s : State} {z : PSize} {n : Byte} (hidle : s.inFrame = false)
    (h : opensAs i s.blk = some (z, n)) : exec i s = .next (s.openFrame z n) := by
  cases i with
  | beginFrame | beginNext | beginAgain =>
    cases h
    exact exec_of_legal (by rw [hidle]; rfl)
  | _ => cases h

/-- A word with the OP of BEGINN or BEGINR and a bit set in w[31:16], w[11:9] or w[7:0] is recorded with E_RSVD (R75). -/
theorem execute_reserved_sizeOnly {op : Opcode} {w : Word} (s : State) (h : op = .beginNext ∨ op = .beginAgain)
    (hop : w.extractLsb' 12 4 = opField op.matchBits)
    (hw : w.extractLsb' 16 16 ≠ 0 ∨ w.extractLsb' 9 3 ≠ 0 ∨ w.extractLsb' 0 8 ≠ 0) :
    execute w s = .next (s.recorded 2 w) := by
  have hmask : op.mask.extractLsb' 16 16 = BitVec.allOnes 16 ∧ op.mask.extractLsb' 9 3 = BitVec.allOnes 3 ∧
      op.mask.extractLsb' 0 8 = BitVec.allOnes 8 := by
    obtain rfl | rfl := h <;> decide
  have hmatch : op.matchBits.extractLsb' 16 16 = 0 ∧ op.matchBits.extractLsb' 9 3 = 0 ∧
      op.matchBits.extractLsb' 0 8 = 0 := by
    obtain rfl | rfl := h <;> decide
  obtain ⟨hmask16, hmask9, hmask0⟩ := hmask
  obtain ⟨hmatch16, hmatch9, hmatch0⟩ := hmatch
  obtain hrsvd | hF | himm := hw
  · exact execute_reserved_field op 16 16 s hmask16 hop (hmatch16 ▸ hrsvd)
  · exact execute_reserved_field op 9 3 s hmask9 hop (hmatch9 ▸ hF)
  · exact execute_reserved_field op 0 8 s hmask0 hop (hmatch0 ▸ himm)

/-- The block number after `n`, by arithmetic (R117). -/
theorem block_succ_eq_ofNat (n : Byte) : n + 1 = BitVec.ofNat 8 ((n.toNat + 1) % 256) :=
  BitVec.eq_of_toNat_eq (by simp [BitVec.toNat_add])

/-! ## The payload (R119) -/

/-- The state with these payload bytes folded, counted and emitted. -/
def State.withPayload (bytes : List Byte) (s : State) : State :=
  { s with
    crc := crcFrom s.crc bytes, sum := sumFrom s.sum bytes, cnt := s.cnt + BitVec.ofNat 11 bytes.length,
    held := s.held ++ bytes }

@[simp] theorem State.withPayload_nil (s : State) : s.withPayload [] = s := by
  simp [State.withPayload, crcFrom, sumFrom]

/-- The first payload byte, and then the others. -/
theorem State.withPayload_cons (b : Byte) (bytes : List Byte) (s : State) :
    s.withPayload (b :: bytes) = (s.payloadByte b).withPayload bytes := by
  have hcnt : 1#11 + BitVec.ofNat 11 bytes.length = BitVec.ofNat 11 (bytes.length + 1) := by
    rw [Nat.add_comm, BitVec.ofNat_add]
  simp [State.withPayload, State.payloadByte, State.acc, State.emit, crcFrom, sumFrom, BitVec.add_assoc, hcnt]

/-- END's padding is a payload of fill bytes (R120). -/
theorem State.padBytes_eq_withPayload (k : Nat) (s : State) : s.padBytes k = s.withPayload (List.replicate k s.fill) := by
  rw [State.padBytes_eq, State.withPayload, List.length_replicate]

/-- CNT counts payload bytes up to the payload size (R28). -/
theorem State.withPayload_cnt_toNat {s : State} {bytes : List Byte} (h : s.cnt.toNat + bytes.length ≤ payloadLen s.size) :
    (s.withPayload bytes).cnt.toNat = s.cnt.toNat + bytes.length := by
  have hmax := payloadLen_le s.size
  simp only [State.withPayload, BitVec.toNat_add, BitVec.toNat_ofNat]
  omega

/-- In frame, DATA takes its byte where the payload is not full. -/
theorem exec_data_of_room {s : State} (b : Byte) (hs : s.inFrame = true) (h : s.cnt.toNat ≠ payloadLen s.size) :
    exec (.data b) s = .next (s.payloadByte b) := by
  obtain ⟨hfull, -⟩ | ⟨-, hact⟩ := action_data_cases b s
  · exact absurd (of_decide_eq_true hfull) h
  · rw [exec_of_legal (by rw [hs]; rfl), hact]

/-- In frame, DATA records E_OVERFLOW where the payload is full. -/
theorem exec_data_of_full {s : State} (b : Byte) (hs : s.inFrame = true) (h : s.cnt.toNat = payloadLen s.size) :
    exec (.data b) s = .next (s.recorded 4 (encode (.data b))) := by
  obtain ⟨-, hact⟩ | ⟨hroom, -⟩ := action_data_cases b s
  · rw [exec_of_legal (by rw [hs]; rfl), hact]
    rfl
  · exact absurd h (of_decide_eq_false hroom)

/-- DATA commands that fit take their bytes and raise nothing. -/
theorem runCommands_data_of_fit {bytes : List Byte} {s : State} (hs : s.inFrame = true)
    (h : s.cnt.toNat + bytes.length ≤ payloadLen s.size) :
    runCommands (bytes.map Instr.data) s = .next (s.withPayload bytes) := by
  induction bytes generalizing s with
  | nil => rw [State.withPayload_nil]; rfl
  | cons b bytes ih =>
    rw [List.length_cons] at h
    have hne : s.cnt.toNat ≠ payloadLen s.size := by omega
    obtain ⟨-, hcnt⟩ := State.payloadByte_cnt_toNat b (decide_eq_false hne) (by omega)
    rw [List.map_cons, runCommands, exec_data_of_room b hs hne, State.withPayload_cons]
    exact ih hs (by rw [hcnt, State.payloadByte_size]; omega)

/-- DATA commands on a full payload change the error record at most. -/
theorem runCommands_data_of_full (bytes : List Byte) {s : State} (hs : s.inFrame = true)
    (h : s.cnt.toNat = payloadLen s.size) :
    ∃ r, runCommands (bytes.map Instr.data) s = .next (s.withRecordOf r) := by
  induction bytes generalizing s with
  | nil => exact ⟨s, rfl⟩
  | cons b bytes ih =>
    obtain ⟨r, hr⟩ : ∃ r, s.recorded 4 (encode (.data b)) = s.withRecordOf r :=
      ⟨s.recorded 4 (encode (.data b)), by unfold State.recorded; split <;> rfl⟩
    rw [List.map_cons, runCommands, exec_data_of_full b hs h, hr]
    exact ih (s := s.withRecordOf r) hs h

/-- Any number of DATA commands takes the bytes there is room for, and beyond these changes the error record at most. -/
theorem runCommands_data (bytes : List Byte) {s : State} (hs : s.inFrame = true) (hc : s.cnt.toNat ≤ payloadLen s.size) :
    ∃ r, runCommands (bytes.map Instr.data) s =
      .next ((s.withPayload (bytes.take (payloadLen s.size - s.cnt.toNat))).withRecordOf r) := by
  by_cases hfit : s.cnt.toNat + bytes.length ≤ payloadLen s.size
  · rw [List.take_of_length_le (by omega)]
    exact ⟨s, runCommands_data_of_fit hs hfit⟩
  · set k := payloadLen s.size - s.cnt.toNat with hk
    have hlen : (bytes.take k).length = k := by rw [List.length_take]; omega
    have hroom : s.cnt.toNat + (bytes.take k).length ≤ payloadLen s.size := by omega
    have hfull : (s.withPayload (bytes.take k)).cnt.toNat = payloadLen s.size := by
      rw [State.withPayload_cnt_toNat hroom]; omega
    obtain ⟨r, hr⟩ := runCommands_data_of_full (bytes.drop k) (s := s.withPayload (bytes.take k)) hs hfull
    refine ⟨r, ?_⟩
    calc runCommands (bytes.map Instr.data) s
        = runCommands ((bytes.take k).map Instr.data ++ (bytes.drop k).map Instr.data) s := by
          rw [← List.map_append, List.take_append_drop]
      _ = runCommands ((bytes.drop k).map Instr.data) (s.withPayload (bytes.take k)) :=
          runCommands_append _ _ (runCommands_data_of_fit hs hroom)
      _ = .next ((s.withPayload (bytes.take k)).withRecordOf r) := hr

/-! ## END (R120) -/

/-- In frame, END pads, emits the trailer and closes. -/
theorem exec_endFrame {s : State} (hs : s.inFrame = true) : exec .endFrame s = .next (s.padAndClose .one) :=
  exec_of_legal (by rw [hs]; rfl)

/-- The pad bytes END emits. -/
def State.padding (s : State) : List Byte := List.replicate (padCount s) s.fill

/-- The trailer bytes of the accumulators (R98), with `P_SUM8_TLEN = 1`. -/
def accTrailer (m : Mode) (crc : Half) (sum : Byte) : List Byte :=
  match m with
  | .crc16 => [crc.extractLsb' 8 8, crc.extractLsb' 0 8]
  | .sum8 => [sum]

theorem State.emitTrailer_eq (s : State) :
    s.emitTrailer .one = { s with held := s.held ++ accTrailer s.mode s.crc s.sum } := by
  cases hmode : s.mode with
  | crc16 => rw [State.emitTrailer_crc16 .one hmode, State.emit_emit, hmode]; rfl
  | sum8 => rw [State.emitTrailer_sum8 hmode, State.emit, hmode]; rfl

/-- END as one update. -/
theorem State.padAndClose_eq (s : State) :
    s.padAndClose .one = { s.withPayload s.padding with
      inFrame := false,
      held := s.held ++ s.padding ++ accTrailer s.mode (crcFrom s.crc s.padding) (sumFrom s.sum s.padding) } := by
  rw [State.padAndClose, State.padBytes_eq_withPayload, State.emitTrailer_eq]
  rfl

/-! ## The bytes of a frame (R113) -/

/-- `State.OpenedAt` with its payload named. -/
structure State.OpenedWith (pre payload : List Byte) (s : State) : Prop where
  out : s.out = pre ++ [headerByte s.size, s.blk, s.blk ^^^ 0xFF] ++ payload
  cnt : payload.length = s.cnt.toNat
  crc : s.crc = crcFrom 0 payload
  sum : s.sum = sumFrom 0 payload

theorem State.openedAt_iff_exists_openedWith (pre : List Byte) (s : State) :
    s.OpenedAt pre ↔ ∃ payload, s.OpenedWith pre payload :=
  ⟨fun ⟨payload, hout, hcnt, hcrc, hsum⟩ => ⟨payload, hout, hcnt, hcrc, hsum⟩,
    fun ⟨payload, hout, hcnt, hcrc, hsum⟩ => ⟨payload, hout, hcnt, hcrc, hsum⟩⟩

/-- A frame just opened stands over its payload bytes, where they fit. -/
theorem State.openedWith_withPayload (z : PSize) (n : Byte) {bytes : List Byte} (s : State) (h : bytes.length ≤ payloadLen z) :
    ((s.openFrame z n).withPayload bytes).OpenedWith s.out bytes where
  out := by simp [State.out, State.withPayload, blockComplement]
  cnt := by
    have hzero : (s.openFrame z n).cnt.toNat = 0 := rfl
    rw [State.withPayload_cnt_toNat (by rwa [hzero, Nat.zero_add]), hzero, Nat.zero_add]
  crc := rfl
  sum := rfl

/-- The error record has no part in an open frame (R144). -/
theorem State.OpenedWith.withRecordOf {pre payload : List Byte} {s : State} (h : s.OpenedWith pre payload) (r : State) :
    (s.withRecordOf r).OpenedWith pre payload :=
  ⟨h.out, h.cnt, h.crc, h.sum⟩

/-- The trailer of a payload is that of the accumulators it leaves (R97). -/
theorem trailerOf_eq_accTrailer (m : Mode) (payload : List Byte) :
    trailerOf m payload = accTrailer m (crcFrom 0 payload) (sumFrom 0 payload) := by
  cases m <;> rfl

/-- END completes the bytes of an open frame to the frame of its payload. -/
theorem State.OpenedWith.padAndClose_out {pre payload : List Byte} {s : State} (h : s.OpenedWith pre payload) :
    (s.padAndClose .one).out = pre ++ frameBytes s.mode s.fill s.size s.blk payload := by
  have hpad : padded s.size s.fill payload = payload ++ s.padding := by
    rw [padded, State.padding, padCount, h.cnt]
  have htrailer : trailerOf s.mode (payload ++ s.padding) =
      accTrailer s.mode (crcFrom s.crc s.padding) (sumFrom s.sum s.padding) := by
    rw [trailerOf_eq_accTrailer, crcFrom_append, sumFrom_append, ← h.crc, ← h.sum]
  calc (s.padAndClose .one).out
      = s.out ++ (s.padding ++ trailerOf s.mode (payload ++ s.padding)) := by
        rw [State.padAndClose_eq, htrailer]
        simp [State.out, State.withPayload]
    _ = pre ++ frameBytes s.mode s.fill s.size s.blk payload := by
        rw [h.out, frameBytes, hpad]
        simp

/-- A frame has the header, number and complement, the payload size and the trailer (R113, R91 with `P_SUM8_TLEN = 1`). -/
theorem frameBytes_length (m : Mode) (fill : Byte) (z : PSize) (n : Byte) {bytes : List Byte}
    (h : bytes.length ≤ payloadLen z) : (frameBytes m fill z n bytes).length = payloadLen z + 3 + tLen .one m := by
  have hpad : (padded z fill bytes).length = payloadLen z := by
    rw [padded, List.length_append, List.length_replicate]; omega
  have htrailer : (trailerOf m (padded z fill bytes)).length = tLen .one m := by cases m <;> rfl
  rw [frameBytes, List.length_append, List.length_append, hpad, htrailer, List.length_cons, List.length_cons,
    List.length_singleton]
  omega

/-! ## The commands of a frame -/

/-- The commands of a frame end as END leaves the state that the DATA commands come to from the opened frame. -/
theorem runCommands_frameCommands {i : Instr} {s u : State} {z : PSize} {n : Byte} {bytes : List Byte}
    (hidle : s.inFrame = false) (hopens : opensAs i s.blk = some (z, n)) (hu : u.inFrame = true)
    (hdata : runCommands (bytes.map Instr.data) (s.openFrame z n) = .next u) :
    runCommands (frameCommands i bytes) s = .next (u.padAndClose .one) := by
  rw [frameCommands, runCommands, exec_of_opensAs hidle hopens]
  dsimp only
  rw [runCommands_append _ _ hdata, runCommands, exec_endFrame hu]
  rfl

/-- The commands of a frame whose payload fits: it is opened, filled and closed, and nothing is raised. -/
theorem runCommands_frame_of_fit {i : Instr} {s : State} {z : PSize} {n : Byte} {bytes : List Byte}
    (hidle : s.inFrame = false) (hopens : opensAs i s.blk = some (z, n)) (h : bytes.length ≤ payloadLen z) :
    runCommands (frameCommands i bytes) s = .next (((s.openFrame z n).withPayload bytes).padAndClose .one) :=
  runCommands_frameCommands hidle hopens rfl (runCommands_data_of_fit rfl (by simpa using h))

/-- The commands of a frame emit the frame of the bytes that fit, whatever the state held before. -/
theorem out_of_runCommands_frame {i : Instr} {s t : State} {z : PSize} {n : Byte} {bytes : List Byte}
    (hidle : s.inFrame = false) (hopens : opensAs i s.blk = some (z, n))
    (h : runCommands (frameCommands i bytes) s = .next t) :
    t.out = s.out ++ frameBytes s.mode s.fill z n (bytes.take (payloadLen z)) := by
  obtain ⟨r, hdata⟩ := runCommands_data bytes (s := s.openFrame z n) rfl (Nat.zero_le _)
  rw [runCommands_frameCommands hidle hopens rfl hdata] at h
  cases h
  exact ((State.openedWith_withPayload z n s (List.length_take_le _ _)).withRecordOf r).padAndClose_out

/-- An opening by BEGINN advances the block number by one modulo 256, and one by BEGINR keeps it (R117, R118). -/
theorem opensAs_next_or_again {i : Instr} {z : PSize} (b : Byte) (h : i = .beginNext z ∨ i = .beginAgain z) :
    ∃ n, opensAs i b = some (z, n) ∧
      n.toNat = (b.toNat + if i = .beginNext .s128 ∨ i = .beginNext .s1024 then 1 else 0) % 256 := by
  obtain rfl | rfl := h
  · refine ⟨b + 1, rfl, ?_⟩
    cases z <;> exact BitVec.toNat_add b 1
  · refine ⟨b, rfl, ?_⟩
    simpa using (Nat.mod_eq_of_lt b.isLt).symm

end Sys2Proof.Machine
end

section
/-! PROOFS. The frame commands one by one, and the frames they build (spec/41_frame.md R113 to R125). -/

namespace Sys2Proof
open Machine

/-- Settles O11: SETFILL writes FILL in the idle state; its row fixes w[31:16] and w[11:8] at 0 and no bit of the byte. -/
theorem setfillSetsPadByte : Obligations.SetfillSetsPadByte := by
  unfold Obligations.SetfillSetsPadByte
  intro s f
  refine ⟨fun hidle => exec_of_legal (by rw [hidle]; rfl), fun hframe => exec_of_not_legal (by rw [hframe]; rfl),
    execute_encode (.setfill f) s, fun w hop hw => ?_⟩
  obtain hrsvd | hF := hw
  · exact execute_reserved_field .setfill 16 16 s (by decide) hop hrsvd
  · exact execute_reserved_field .setfill 8 4 s (by decide) hop hF

/-- Settles O12: BEGIN is `openFrame` with its own operands in the idle state; its row fixes w[31:16] and w[11:9] at 0. -/
theorem beginOpensNumberedFrame : Obligations.BeginOpensNumberedFrame := by
  unfold Obligations.BeginOpensNumberedFrame
  intro s n
  have hopens (z : PSize) (hidle : s.inFrame = false) : exec (.beginFrame z n) s = .next (s.openFrame z n) :=
    exec_of_opensAs hidle rfl
  refine ⟨fun hidle => ?_, fun hframe => ?_, execute_encode (.beginFrame .s128 n) s, execute_encode (.beginFrame .s1024 n) s,
    fun w hop hw => ?_⟩
  · rw [hopens _ hidle, hopens _ hidle, State.openFrame_eq, State.openFrame_eq]
    exact ⟨rfl, rfl⟩
  · exact ⟨exec_of_not_legal (by rw [hframe]; rfl), exec_of_not_legal (by rw [hframe]; rfl)⟩
  · obtain hrsvd | hF := hw
    · exact execute_reserved_field .beginFrame 16 16 s (by decide) hop hrsvd
    · exact execute_reserved_field .beginFrame 9 3 s (by decide) hop hF

/-- Settles O13: BEGINN is `openFrame` with the number after BLK in the idle state; its row fixes every bit but w[8]. -/
theorem beginnOpensNextBlock : Obligations.BeginnOpensNextBlock := by
  unfold Obligations.BeginnOpensNextBlock
  intro s
  have hopens (z : PSize) (hidle : s.inFrame = false) : exec (.beginNext z) s = .next (s.openFrame z (s.blk + 1)) :=
    exec_of_opensAs hidle rfl
  refine ⟨fun hidle => ?_, fun hframe => ?_, execute_encode (.beginNext .s128) s, execute_encode (.beginNext .s1024) s,
    fun w hop hw => execute_reserved_sizeOnly s (.inl rfl) hop hw⟩
  · rw [hopens _ hidle, hopens _ hidle, State.openFrame_eq, State.openFrame_eq, block_succ_eq_ofNat]
    exact ⟨rfl, rfl⟩
  · exact ⟨exec_of_not_legal (by rw [hframe]; rfl), exec_of_not_legal (by rw [hframe]; rfl)⟩

/-- Settles O14: BEGINR is `openFrame` with BLK itself in the idle state; its row fixes every bit but w[8]. -/
theorem beginrReopensBlock : Obligations.BeginrReopensBlock := by
  unfold Obligations.BeginrReopensBlock
  intro s
  have hopens (z : PSize) (hidle : s.inFrame = false) : exec (.beginAgain z) s = .next (s.openFrame z s.blk) :=
    exec_of_opensAs hidle rfl
  refine ⟨fun hidle => ?_, fun hframe => ?_, execute_encode (.beginAgain .s128) s, execute_encode (.beginAgain .s1024) s,
    fun w hop hw => execute_reserved_sizeOnly s (.inr rfl) hop hw⟩
  · rw [hopens _ hidle, hopens _ hidle, State.openFrame_eq, State.openFrame_eq]
    exact ⟨rfl, rfl⟩
  · exact ⟨exec_of_not_legal (by rw [hframe]; rfl), exec_of_not_legal (by rw [hframe]; rfl)⟩

/-- Settles O15: DATA takes its byte where CNT is not at the payload size, and is refused by E_OVERFLOW or E_STATE otherwise. -/
theorem dataEmitsAndFolds : Obligations.DataEmitsAndFolds := by
  unfold Obligations.DataEmitsAndFolds
  intro s b
  refine ⟨exec_data_of_room b, exec_data_of_full b, fun hidle => exec_of_not_legal (by rw [hidle]; rfl),
    execute_encode (.data b) s, fun w hop hw => ?_⟩
  obtain hrsvd | hF := hw
  · exact execute_reserved_field .data 16 16 s (by decide) hop hrsvd
  · exact execute_reserved_field .data 8 4 s (by decide) hop hF

/-- Settles O16: END's padding is one update, its trailer is read from the padded accumulators, and 0x0000A000 is the one word of its row. -/
theorem endPadsAndEmitsTrailer : Obligations.EndPadsAndEmitsTrailer := by
  unfold Obligations.EndPadsAndEmitsTrailer
  rintro s k rfl
  refine ⟨fun hframe hmode => ?_, fun hframe hmode => ?_, fun hcnt => ?_, fun hidle => exec_of_not_legal (by rw [hidle]; rfl),
    execute_encode .endFrame s, fun w hop hw => execute_other_word .endFrame s rfl hop hw⟩
  · rw [exec_endFrame hframe, State.padAndClose_eq, State.withPayload, State.padding, List.length_replicate, hmode]
    rfl
  · rw [exec_endFrame hframe, State.padAndClose_eq, State.withPayload, State.padding, List.length_replicate, hmode]
    rfl
  · have hend := State.padAndClose_cnt_toNat .one hcnt
    rwa [State.padAndClose_cnt] at hend

/-- Settles O17: ABORT is legal in both frame states and clears INFRAME; 0x0000B000 is the one word of its row. -/
theorem abortAbandonsFrame : Obligations.AbortAbandonsFrame := by
  unfold Obligations.AbortAbandonsFrame
  intro s
  exact ⟨exec_of_legal rfl, execute_encode .abort s, fun w hop hw => execute_other_word .abort s rfl hop hw⟩

/-- Settles O24: the run ends in the opened, filled and closed state (`runCommands_frame_of_fit`), whose stream END completes to the frame. -/
theorem commandsOfFrameEmitOneFrame : Obligations.CommandsOfFrameEmitOneFrame := by
  unfold Obligations.CommandsOfFrameEmitOneFrame
  intro s i z n bytes hidle hopens hfit
  have hrun := runCommands_frame_of_fit hidle hopens hfit
  have hout := out_of_runCommands_frame hidle hopens hrun
  rw [List.take_of_length_le hfit] at hout
  have hroom : ((s.openFrame z n).withPayload bytes).cnt.toNat ≤ payloadLen z :=
    (State.openedWith_withPayload z n s hfit).cnt ▸ hfit
  have hcnt := State.padAndClose_cnt_toNat .one (s := (s.openFrame z n).withPayload bytes) hroom
  have hlen := frameBytes_length s.mode s.fill z n hfit
  rw [State.padAndClose_eq] at hrun hout hcnt
  refine ⟨⟨_, hrun, hout, rfl, rfl, rfl, rfl, hcnt, rfl, rfl, rfl, rfl, rfl, rfl⟩, ?_⟩
  rw [hlen]
  cases s.mode <;> rfl

/-- Settles O25: each run emits the frame of the bytes that fit (`out_of_runCommands_frame`), which only MODE, FILL, the size, the number and the bytes enter. -/
theorem retransmittedFrameIsIdentical : Obligations.RetransmittedFrameIsIdentical := by
  unfold Obligations.RetransmittedFrameIsIdentical
  intro s₁ s₂ t₁ t₂ i₁ i₂ z n bytes hidle₁ hidle₂ hmode hfill hopens₁ hopens₂ hrun₁ hrun₂
  refine ⟨frameBytes s₁.mode s₁.fill z n (bytes.take (payloadLen z)), out_of_runCommands_frame hidle₁ hopens₁ hrun₁, ?_⟩
  rw [hmode, hfill]
  exact out_of_runCommands_frame hidle₂ hopens₂ hrun₂

/-- Settles O26, by induction on the frames: each ends idle with the number it was opened with (`commandsOfFrameEmitOneFrame`). -/
theorem blockNumberAdvancesOncePerBeginn : Obligations.BlockNumberAdvancesOncePerBeginn := by
  unfold Obligations.BlockNumberAdvancesOncePerBeginn
  intro s frames hidle hframes
  induction frames generalizing s with
  | nil => exact ⟨s, rfl, hidle, (Nat.mod_eq_of_lt s.blk.isLt).symm⟩
  | cons f frames ih =>
    obtain ⟨hf, hrest⟩ := List.forall_mem_cons.mp hframes
    obtain ⟨z, hopening, hfit⟩ := hf
    obtain ⟨n, hopens, hn⟩ := opensAs_next_or_again s.blk hopening
    obtain ⟨⟨t, hrun, -, -, htidle, hblk, -⟩, -⟩ := commandsOfFrameEmitOneFrame s f.1 z n f.2 hidle hopens hfit
    obtain ⟨u, hu, huidle, hublk⟩ := ih t htidle hrest
    refine ⟨u, ?_, huidle, ?_⟩
    · rw [framesCommands, List.flatMap_cons, runCommands_append _ _ hrun]
      exact hu
    · rw [hublk, hblk, hn, List.filter_cons]
      by_cases h : f.1 = .beginNext .s128 ∨ f.1 = .beginNext .s1024
      · rw [if_pos h, if_pos (decide_eq_true h), List.length_cons]
        omega
      · rw [if_neg h, if_neg (by simpa using h)]
        omega

end Sys2Proof
end

section
/-! PROOFS. The housekeeping commands (spec/42_control.md R130, R131). -/

namespace Sys2Proof
open Machine

/-- Settles O6: NOP is legal in both frame states and its action is the identity; 0x00000000 is the one word of its row. -/
theorem nopChangesNothing : Obligations.NopChangesNothing := by
  unfold Obligations.NopChangesNothing
  intro s
  exact ⟨exec_of_legal rfl, execute_encode .nop s, fun w hop hw => execute_other_word .nop s rfl hop hw⟩

/-- Settles O18: CLRERR is legal in both frame states and clears the record, so the state it answers drives err_o low; 0x0000C000 is the one word of its row. -/
theorem clrerrClearsRecord : Obligations.ClrerrClearsRecord := by
  unfold Obligations.ClrerrClearsRecord
  intro s
  have hclear : exec .clrerr s = .next s.clearRecord := exec_of_legal rfl
  refine ⟨hclear, fun t ht => ?_, execute_encode .clrerr s, fun w hop hw => execute_other_word .clrerr s rfl hop hw⟩
  obtain rfl : s.clearRecord = t := Host.Outcome.next.inj (hclear.symm.trans ht)
  rfl

end Sys2Proof
end

section
/-! PROOFS. What a word does to the error record, and the independence of everything else from it (spec/60_exceptions.md R140 to R145). -/

namespace Sys2Proof.Machine

/-! ## What a word does to the record (R143, R148) -/

/-- A word raises an error it can raise, or acts as its command without an error. -/
theorem execute_raises_or_acts {w : Word} {s t : State} (h : execute w s = .next t) :
    (∃ e, codeFits e.code w = true ∧ t = s.raise e w) ∨
    (∃ i, w = encode i ∧ (∀ b, i = .data b → payloadFull s = false) ∧ t = action i s) := by
  obtain ⟨hd, rfl⟩ | ⟨op, hd, rfl⟩ | ⟨i, hd, hx⟩ := execute_cases h
  · exact .inl ⟨.eIllegal, by simp [codeFits, hd, ErrKind.code], rfl⟩
  · exact .inl ⟨.eRsvd, by simp [codeFits, hd, ErrKind.code], rfl⟩
  · obtain rfl := eq_encode_of_decode hd
    obtain ⟨-, rfl⟩ | ⟨hl, rfl⟩ := exec_cases hx
    · by_cases room : ∀ b, i = .data b → payloadFull s = false
      · exact .inr ⟨i, rfl, room, rfl⟩
      · push Not at room
        obtain ⟨b, rfl, hfull⟩ := room
        obtain ⟨-, hb⟩ | ⟨hroom, -⟩ := action_data_cases b s
        · exact .inl ⟨.eOverflow, codeFits_eOverflow b, hb⟩
        · exact absurd hroom hfull
    · exact .inl ⟨.eState, codeFits_eState (stateChecked_of_not_legal hl), rfl⟩

/-- Everything a word can do to the error record: raise an error, clear it by CLRERR's word, or leave it. -/
theorem execute_record {w : Word} {s t : State} (h : execute w s = .next t) :
    (∃ e, codeFits e.code w = true ∧ t = s.raise e w) ∨ (w = 0x0000C000 ∧ t = s.clearRecord) ∨ SameRecord s t := by
  obtain hraise | ⟨i, hw, room, rfl⟩ := execute_raises_or_acts h
  · exact .inl hraise
  · by_cases hi : i = .clrerr
    · subst hi
      exact .inr (.inl ⟨hw, rfl⟩)
    · exact .inr (.inr (action_sameRecord hi room))

/-- A word that makes ERR rise writes the record and nothing else (R143, R144). -/
theorem execute_raising {w : Word} {s t : State} (h : execute w s = .next t) (hs : s.err = false) (ht : t.err = true) :
    t = { s with err := true, errCode := t.errCode, errInfo := w } ∧ codeFits t.errCode w = true := by
  obtain ⟨e, fits, rfl⟩ | ⟨-, rfl⟩ | same := execute_record h
  · rw [State.raise_first e w hs]
    exact ⟨rfl, fits⟩
  · cases ht
  · rw [same.err, hs] at ht
    cases ht

/-- While ERR is 1 a word other than CLRERR's leaves the record (R143, R148). -/
theorem execute_keeps_record {w : Word} {s t : State} (h : execute w s = .next t) (hs : s.err = true) (hw : w ≠ 0x0000C000) :
    SameRecord s t := by
  obtain ⟨e, -, rfl⟩ | ⟨hclrerr, -⟩ | same := execute_record h
  · rw [State.raise_kept e w hs]
    exact ⟨rfl, rfl, rfl⟩
  · exact absurd hclrerr hw
  · exact same

/-- A step that moves ERR executes a word written to CMD, or is a reset (R145). -/
theorem step_moves_err {s t : State} (h : step s = .next t) (hne : t.err ≠ s.err) :
    (∃ w rest, s.inputs = .write 0 w :: rest ∧ execute w { s with inputs := rest } = .next t) ∨
    (∃ rest, s.inputs = .assertReset :: rest ∧ t.err = false) := by
  obtain ⟨-, rfl⟩ | ⟨idx, rest, -, -, rfl⟩ | ⟨idx, v, rest, hin, -, hw⟩ | ⟨rest, hin, rfl⟩ | ⟨rest, -, rfl⟩ := step_cases h
  · exact absurd rfl hne
  · exact absurd rfl hne
  · obtain ⟨rfl, hx⟩ | ⟨-, rfl⟩ | ⟨-, -, rfl⟩ := busWrite_cases hw
    · exact .inl ⟨v, rest, hin, hx⟩
    · exact absurd rfl hne
    · exact absurd rfl hne
  · exact .inr ⟨rest, hin, rfl⟩
  · exact absurd (State.takeByte_err _) hne

/-! ## The record in no other field (R144) -/

/-- Raising an error reads nothing but the record and writes nothing but it. -/
theorem State.raise_withRecordOf (e : ErrKind) (w : Word) (s r : State) :
    (s.withRecordOf r).raise e w = (s.raise e w).withRecordOf ((s.withRecordOf r).raise e w) := by
  unfold State.raise
  split <;> split <;> rfl

/-- The record has no part in the trailer (R98). -/
theorem State.emitTrailer_withRecordOf (s r : State) :
    (s.withRecordOf r).emitTrailer .one = (s.emitTrailer .one).withRecordOf r := by
  rw [State.emitTrailer_eq, State.emitTrailer_eq]
  rfl

/-- The record has no part in END (R120). -/
theorem State.padAndClose_withRecordOf (s r : State) :
    (s.withRecordOf r).padAndClose .one = (s.padAndClose .one).withRecordOf r := by
  rw [State.padAndClose_eq, State.padAndClose_eq]
  rfl

/-- From states that differ in the record only, a command's action leads to states that differ in the record only. -/
theorem action_withRecordOf (i : Instr) (s r : State) :
    action i (s.withRecordOf r) = (action i s).withRecordOf (action i (s.withRecordOf r)) := by
  cases i with
  | trl =>
    have htrailer : action .trl (s.withRecordOf r) = (action .trl s).withRecordOf r := State.emitTrailer_withRecordOf s r
    rw [htrailer]
    rfl
  | data b =>
    have hsame : payloadFull (s.withRecordOf r) = payloadFull s := rfl
    simp only [action, hsame]
    split
    · exact State.raise_withRecordOf .eOverflow (encode (.data b)) s r
    · rfl
  | endFrame =>
    have hclose : action .endFrame (s.withRecordOf r) = (action .endFrame s).withRecordOf r := State.padAndClose_withRecordOf s r
    rw [hclose]
    rfl
  | _ => rfl

/-! ## A word in every state (R142) -/

theorem execute_of_illegal {w : Word} (s : State) (h : decode w = .illegal) : execute w s = .next (s.raise .eIllegal w) := by
  rw [execute, h]

theorem execute_of_reserved {w : Word} {op : Opcode} (s : State) (h : decode w = .reserved op) :
    execute w s = .next (s.raise .eRsvd w) := by
  rw [execute, h]

/-- A command has no other outcome than a next state, legal or not (R144). -/
theorem exec_completes (i : Instr) (s : State) : ∃ t, exec i s = .next t := by
  cases hl : legal i s.inFrame with
  | true => exact ⟨_, exec_of_legal hl⟩
  | false => exact ⟨_, exec_of_not_legal hl⟩

/-- Whether a command is legal does not depend on the record, so it acts in both states or in neither. -/
theorem exec_withRecordOf {i : Instr} {s r t u : State} (ht : exec i s = .next t) (hu : exec i (s.withRecordOf r) = .next u) :
    u = t.withRecordOf u := by
  cases hl : legal i s.inFrame with
  | true =>
    rw [exec_of_legal hl] at ht
    rw [exec_of_legal (s := s.withRecordOf r) hl] at hu
    cases ht; cases hu
    exact action_withRecordOf i s r
  | false =>
    rw [exec_of_not_legal hl] at ht
    rw [exec_of_not_legal (s := s.withRecordOf r) hl] at hu
    cases ht; cases hu
    exact State.raise_withRecordOf .eState (encode i) s r

end Sys2Proof.Machine
end

section
/-! PROOFS. The errors and their record (spec/60_exceptions.md R140 to R148). -/

namespace Sys2Proof
open Machine

/-- Settles O28: of the three things a word can do to the record, only raising an error makes ERR rise. -/
theorem raisedErrorChangesOnlyRecord : Obligations.RaisedErrorChangesOnlyRecord := by
  unfold Obligations.RaisedErrorChangesOnlyRecord
  intro w s t h hs ht
  exact execute_raising h hs ht

/-- Settles O29: with ERR at 1 a raised error leaves no trace, and only CLRERR's word clears the record. -/
theorem firstErrorRecordIsKept : Obligations.FirstErrorRecordIsKept := by
  unfold Obligations.FirstErrorRecordIsKept
  intro w s t h hs hw
  obtain ⟨herr, hcode, hinfo⟩ := execute_keeps_record h hs hw
  exact ⟨herr.trans hs, hcode, hinfo⟩

/-- Settles O30: decoding reads no state, an error writes the record only, and neither legality nor an action reads the record. -/
theorem errorRecordGatesNothing : Obligations.ErrorRecordGatesNothing := by
  unfold Obligations.ErrorRecordGatesNothing
  intro w s r t u ht hu
  cases hd : decode w with
  | illegal =>
    rw [execute_of_illegal _ hd] at ht hu
    cases ht; cases hu
    exact State.raise_withRecordOf .eIllegal w s r
  | reserved op =>
    rw [execute_of_reserved _ hd] at ht hu
    cases ht; cases hu
    exact State.raise_withRecordOf .eRsvd w s r
  | cmd i =>
    rw [execute_of_decode _ hd] at ht hu
    exact exec_withRecordOf ht hu

/-- Settles O31: a step that moves ERR executes a word, which raises as in O28 and keeps ERR as in O29, or is a reset, which only lowers it. -/
theorem errorOutputFollowsRecord : Obligations.ErrorOutputFollowsRecord := by
  unfold Obligations.ErrorOutputFollowsRecord
  refine ⟨fun _ => rfl, fun s t h (hs : s.err = false) (ht : t.err = true) => ?_,
    fun s t h (hs : s.err = true) (ht : t.err = false) => ?_⟩
  · obtain ⟨w, rest, hin, hx⟩ | ⟨rest, -, hlow⟩ := step_moves_err h (by simp [hs, ht])
    · obtain ⟨heq, fits⟩ := execute_raising hx hs ht
      exact ⟨w, rest, hin, congrArg State.errInfo heq, fits⟩
    · simp [hlow] at ht
  · obtain ⟨w, rest, hin, hx⟩ | ⟨rest, hin, -⟩ := step_moves_err h (by simp [hs, ht])
    · by_cases hw : w = 0x0000C000
      · exact ⟨rest, .inl (hw ▸ hin)⟩
      · have herr : t.err = s.err := (execute_keeps_record hx hs hw).err
        simp [herr, hs] at ht
    · exact ⟨rest, .inr hin⟩

/-- Settles O27: an illegal or reserved word records its error, and a command acts or records its own. -/
theorem everyWordCompletes : Obligations.EveryWordCompletes := by
  unfold Obligations.EveryWordCompletes
  intro w s
  cases hd : decode w with
  | illegal => exact ⟨_, execute_of_illegal s hd⟩
  | reserved op => exact ⟨_, execute_of_reserved s hd⟩
  | cmd i =>
    rw [execute_of_decode s hd]
    exact exec_completes i s

end Sys2Proof
end

section
/-! PROOFS. A reset while a command's bytes are being transferred (spec/70_reset_and_hazards.md R160, R162). -/

namespace Sys2Proof.Machine

/-- A word's execution returns nothing to the host (R51, R55). -/
theorem execute_busData {w : Word} {s t : State} (h : execute w s = .next t) : t.busData = s.busData := by
  obtain ⟨-, rfl⟩ | ⟨op, -, rfl⟩ | ⟨i, -, hx⟩ := execute_cases h
  · exact State.raise_busData .eIllegal w s
  · exact State.raise_busData .eRsvd w s
  · obtain ⟨-, rfl⟩ | ⟨-, rfl⟩ := exec_cases hx
    · obtain ⟨-, -, -, hbus⟩ := action_outside i s
      exact hbus
    · exact State.raise_busData .eState (encode i) s

/-- A reset input's step, bytes held or not (R160, R162). -/
theorem step_assertReset {s : State} {rest : List Input} (h : s.inputs = .assertReset :: rest) :
    step s = .next (State.hardReset { s with inputs := rest }) :=
  step_cons h

end Sys2Proof.Machine
end

section
/-! PROOFS. Reset and hazards (spec/70_reset_and_hazards.md R160 to R167). -/

namespace Sys2Proof
open Machine

/-- Settles O44: the write and its transfers leave what `run_cmdWrite_takes` says with the reset next, and the reset keeps of that only what has been taken, the pins and the host's record. The bound on the number of transfers is not needed: past the last byte held they move nothing. -/
theorem resetCutsCommandAfterAnyPrefix : Obligations.ResetCutsCommandAfterAnyPrefix := by
  unfold Obligations.ResetCutsCommandAfterAnyPrefix
  intro s t w k rest hh hin h _
  have hexec : execute w { s with inputs := .assertReset :: rest } = .next { t with inputs := .assertReset :: rest } :=
    execute_setInputs (s := { s with inputs := rest }) _ h
  have hrun := run_cmdWrite_takes k hh hin hexec
  have hbus : t.busData = s.busData := execute_busData (s := { s with inputs := rest }) h
  rw [run_succ_last (k + 1) hrun, step_assertReset rfl, ← hbus]
  rfl

end Sys2Proof
end
